-- ==== Sys2Proof/Word.lean ====
section
/-! DEFINITION. The widths of the block: bytes on the wire, 16-bit counters and wire values, 32-bit operation
words and register words (spec/00_scope.md section 5). -/

namespace Sys2Proof

/-- An unsigned byte, `0xNN` in the spec. -/
abbrev Byte := BitVec 8

/-- A 16-bit unsigned value: an event counter, the checksum accumulator, ARG, a combined hi/lo pair. -/
abbrev Half := BitVec 16

/-- A 32-bit word of the operation port (R80) or of the register read port (R220). -/
abbrev Word := BitVec 32

/-- A byte string on the wire, index 0 first (R52). -/
abbrev Frame := List Byte

end Sys2Proof
end

