-- ==== Sys2Proof/Params.lean ====
section
/-! DEFINITION. The wire constants the source fixes (R6) and the shape of the OPEN parameters (R7, R33): the address
constants, the two field maps, the eight command ROMs and the sizes.  Nothing here is state; no operation writes it. -/

namespace Sys2Proof

namespace Wire

/-- MARKER: the byte that begins every frame (R6, R73). -/
abbrev marker : Byte := 0xF7#8

/-- HDR_SIZE (R6). -/
abbrev hdrSize : Nat := 6

/-- SEED_STATUS (R6, R103). -/
abbrev seedStatus : Byte := 0x4B#8

/-- SEED_OTHER (R6, R103). -/
abbrev seedOther : Byte := 0x62#8

/-- FRAME_MAX: the largest frame, header and checksum byte included (R6). -/
abbrev frameMax : Nat := 128

/-- BODY_CAP: the bytes of the payload buffer (R6, R24). -/
abbrev bodyCap : Nat := 128

/-- CMD_MAX: the largest command frame (R6, R28). -/
abbrev cmdMax : Nat := 64

/-- NSLOTS: the visitor slots (R6, R29). -/
abbrev nSlots : Nat := 16

/-- LEN_MAX: the largest accepted header `length`, so that 7 + LEN_MAX = FRAME_MAX (R7, R75; decision D10). -/
abbrev lenMax : Nat := 121

/-- The largest body offset a field descriptor may name (R147 (a), (b)). -/
abbrev offMax : Nat := 120

end Wire

/-- How one field lies in a frame body (R147). -/
inductive FieldDesc
  /-- ABSENT: the field is not carried by this configuration. -/
  | absent
  /-- BYTE(off, mask). -/
  | byte (off : Nat) (mask : Byte)
  /-- WORD(hi_off, lo_off): both offsets are named, no byte order is assumed (R53). -/
  | word (hiOff loOff : Nat)
  deriving DecidableEq, Repr

/-- WATER_MAP: one descriptor per field of R150. -/
structure WaterMap where
  power : FieldDesc
  recircInternalSched : FieldDesc
  recircExternalSched : FieldDesc
  dhwSetTemp : FieldDesc
  dhwOutletTemp : FieldDesc
  dhwInletTemp : FieldDesc
  flow : FieldDesc
  operatingCapacity : FieldDesc
  heatingMode : FieldDesc
  operatingState : FieldDesc
  boilerActive : FieldDesc
  recircHotButtonActive : FieldDesc
  recircScheduleAllowed : FieldDesc
  deriving DecidableEq, Repr

/-- GAS_MAP: one descriptor per field of R152. -/
structure GasMap where
  deviceType : FieldDesc
  controllerFwVersion : FieldDesc
  panelFwVersion : FieldDesc
  dhwSetTemp : FieldDesc
  dhwOutletTemp : FieldDesc
  dhwInletTemp : FieldDesc
  shSetTemp : FieldDesc
  shOutletTemp : FieldDesc
  shReturnTemp : FieldDesc
  gasCumulative : FieldDesc
  gasInstant : FieldDesc
  heatCapacity : FieldDesc
  dhwUsageCount : FieldDesc
  operatingTime : FieldDesc
  dhwUsageHours : FieldDesc
  shUsageHours : FieldDesc
  daysSinceInstall : FieldDesc
  displayUnits : FieldDesc
  hotButtonEnabled : FieldDesc
  deriving DecidableEq, Repr

/-- The OPEN parameters of R7 as plain data, not yet checked against R56, R77 and R147 (Machine/ConfigCheck.lean). -/
structure Params where
  statusSrcBase : Byte
  dirStatus : Byte
  dirControl : Byte
  dstWater : Byte
  dstGas : Byte
  ctrlSrc : Byte
  waterMap : WaterMap
  gasMap : GasMap
  romTurnOn : Frame
  romTurnOff : Frame
  romHotPress : Frame
  romHotRelease : Frame
  romRecircOn : Frame
  romRecircOff : Frame
  romPresence : Frame
  romSetTemp : Frame
  tempOffset : Nat
  presenceInterval : Nat
  queueDepth : Nat
  deriving DecidableEq, Repr

/-- WATER_MAP of the example configuration EX1 (R8; spec/95_test_vectors.md). -/
def WaterMap.ex1 : WaterMap where
  power := .byte 0 0x01#8
  recircInternalSched := .byte 0 0x02#8
  recircExternalSched := .byte 0 0x04#8
  boilerActive := .byte 0 0x08#8
  recircHotButtonActive := .byte 0 0x10#8
  recircScheduleAllowed := .byte 0 0x20#8
  dhwSetTemp := .byte 1 0xFF#8
  dhwOutletTemp := .byte 2 0xFF#8
  dhwInletTemp := .byte 3 0xFF#8
  flow := .byte 4 0xFF#8
  operatingCapacity := .byte 5 0xFF#8
  heatingMode := .byte 6 0xFF#8
  operatingState := .byte 7 0xFF#8

/-- GAS_MAP of EX1. -/
def GasMap.ex1 : GasMap where
  deviceType := .byte 0 0xFF#8
  controllerFwVersion := .byte 1 0xFF#8
  panelFwVersion := .byte 2 0xFF#8
  dhwSetTemp := .byte 3 0xFF#8
  dhwOutletTemp := .byte 4 0xFF#8
  dhwInletTemp := .byte 5 0xFF#8
  shSetTemp := .byte 6 0xFF#8
  shOutletTemp := .byte 7 0xFF#8
  shReturnTemp := .byte 8 0xFF#8
  heatCapacity := .byte 9 0xFF#8
  gasCumulative := .word 10 11
  gasInstant := .word 12 13
  dhwUsageCount := .word 14 15
  operatingTime := .word 16 17
  dhwUsageHours := .word 18 19
  shUsageHours := .word 20 21
  daysSinceInstall := .word 22 23
  displayUnits := .byte 24 0x01#8
  hotButtonEnabled := .byte 24 0x02#8

/-- The example configuration EX1 of the test vectors (R8, decision D45).  It is no device's configuration: it serves
the tests, and it shows that a legal configuration exists. -/
def Params.ex1 : Params where
  statusSrcBase := 0x50#8
  dirStatus := 0x90#8
  dirControl := 0x10#8
  dstWater := 0x50#8
  dstGas := 0x0F#8
  ctrlSrc := 0x0F#8
  waterMap := .ex1
  gasMap := .ex1
  romTurnOn := [0xF7#8, 0x05#8, 0x0F#8, 0x50#8, 0x10#8, 0x02#8, 0x01#8, 0x01#8, 0xB9#8]
  romTurnOff := [0xF7#8, 0x05#8, 0x0F#8, 0x50#8, 0x10#8, 0x02#8, 0x01#8, 0x00#8, 0xB8#8]
  romHotPress := [0xF7#8, 0x05#8, 0x0F#8, 0x50#8, 0x10#8, 0x02#8, 0x02#8, 0x01#8, 0xBF#8]
  romHotRelease := [0xF7#8, 0x05#8, 0x0F#8, 0x50#8, 0x10#8, 0x02#8, 0x02#8, 0x00#8, 0xBE#8]
  romRecircOn := [0xF7#8, 0x05#8, 0x0F#8, 0x50#8, 0x10#8, 0x02#8, 0x03#8, 0x01#8, 0xBD#8]
  romRecircOff := [0xF7#8, 0x05#8, 0x0F#8, 0x50#8, 0x10#8, 0x02#8, 0x03#8, 0x00#8, 0xBC#8]
  romPresence := [0xF7#8, 0x05#8, 0x0F#8, 0x50#8, 0x10#8, 0x01#8, 0xAA#8, 0x40#8]
  romSetTemp := [0xF7#8, 0x05#8, 0x0F#8, 0x50#8, 0x10#8, 0x02#8, 0x04#8, 0x00#8, 0xB2#8]
  tempOffset := 7
  presenceInterval := 2
  queueDepth := 4

end Sys2Proof
end

