-- ==== Sys2Proof/Machine/Checksum.lean ====
section
/-! DEFINITION. The checksum engine (spec/40_checksum.md), a pure function used by frame validation and by SET_TEMP. -/

namespace Sys2Proof.Machine

/-- The accumulator after the shift and the fold of one iteration, before the input byte enters (R100, R105). -/
def checksumShift (seed : Byte) (acc : Half) : Half :=
  let shifted := acc <<< 1
  if shifted.toNat > 0x00FF then (shifted &&& 0x00FF#16) ^^^ seed.setWidth 16 else shifted

/-- One iteration of the loop of R100. -/
def checksumStep (seed : Byte) (acc : Half) (b : Byte) : Half :=
  (checksumShift seed acc &&& 0x00FF#16) ^^^ b.setWidth 16

/-- The accumulator after the bytes of `bs`, starting from 0x00FF (R100). -/
def checksumAcc (bs : List Byte) (seed : Byte) : Half :=
  bs.foldl (checksumStep seed) 0x00FF#16

/-- `checksum(B, n, seed)` of R100, with the special case of R101 before the loop. -/
def checksum (bs : List Byte) (n : Nat) (seed : Byte) : Byte :=
  if n < 2 then 0x00#8 else (checksumAcc (bs.take n) seed).setWidth 8

end Sys2Proof.Machine
end

