-- ==== Sys2Proof/Machine/Operands.lean ====
section
/-! DEFINITION. Every operand form: the fields of the operation word (R80, R81), and the field descriptors a frame body is
read through (R147 to R149). -/

namespace Sys2Proof.Machine

/-- OPC, bits [7:0] of the operation word (R80). -/
def opcField (w : Word) : Byte := w.extractLsb' 0 8

/-- SLOT, bits [11:8], an unsigned slot number 0..15 (R81). -/
def slotField (w : Word) : Fin 16 := (w.extractLsb' 8 4).toFin

/-- HANDLE, bits [23:16] (R81). -/
def handleField (w : Word) : Byte := w.extractLsb' 16 8

/-- ARG, bits [31:16], never sign-extended or scaled here (R81). -/
def argField (w : Word) : Half := w.extractLsb' 16 16

/-- `t * 100` for the decimal value of a SET_TEMP_C line (R87 (a)); digits past the second are not reached by a
well-formed line. -/
def centiOfDecimal (whole : Nat) (frac : List Nat) : Nat :=
  match frac with
  | [] => whole * 100
  | [d] => whole * 100 + d * 10
  | d :: e :: _ => whole * 100 + d * 10 + e

/-- The number of 1 bits of a mask: the width of a BYTE value (R148). -/
def popcount (m : Byte) : Nat := ((List.range 8).filter m.getLsbD).length

/-- `ctz(m)`: the trailing zero bits of a mask, 8 for the zero mask, which no legal descriptor has (00_scope.md section 5). -/
def ctz (m : Byte) : Nat := ((List.range 8).takeWhile fun i => !m.getLsbD i).length

/-- The mask is non-zero and its 1 bits are contiguous (R147 (a)). -/
def contiguous (m : Byte) : Bool := m != 0#8 && (m >>> ctz m).toNat + 1 == 2 ^ popcount m

/-- Byte `i` of a byte string; every offset a legal descriptor names lies inside the body buffer. -/
def byteAt (bs : List Byte) (i : Nat) : Byte := bs.getD i 0#8

/-- `(hi << 8) | lo`, the value of two wire bytes (R53, R153). -/
def wordValue (hi lo : Byte) : Half := (hi.setWidth 16 <<< 8) ||| lo.setWidth 16

/-- The value of a BYTE descriptor's byte under its mask (R148). -/
def maskedValue (b mask : Byte) : Byte := (b &&& mask) >>> ctz mask

/-- The raw integer one descriptor gives, with the width R148 gives it. -/
structure FieldValue where
  /-- popcount(mask) bits for BYTE, 16 for WORD. -/
  width : Nat
  /-- The raw unsigned integer; the block never scales it (R153 to R160). -/
  raw : Nat
  deriving DecidableEq, Repr

/-- `value(d)` of R148, read from the body bytes; `none` is the spec's NONE. -/
def fieldValue (body : List Byte) (d : FieldDesc) : Option FieldValue :=
  match d with
  | .absent => none
  | .byte off mask => some ⟨popcount mask, (maskedValue (byteAt body off) mask).toNat⟩
  | .word hi lo => some ⟨16, (wordValue (byteAt body hi) (byteAt body lo)).toNat⟩

/-- 1 + the largest offset a descriptor names, 0 for ABSENT: the body length it needs (R147). -/
def descNeeds (d : FieldDesc) : Nat :=
  match d with
  | .absent => 0
  | .byte off _ => off + 1
  | .word hi lo => max hi lo + 1

/-- `MIN_LEN` of a list of descriptors (R147). -/
def minLen (ds : List FieldDesc) : Nat := ds.foldr (fun d n => max (descNeeds d) n) 0

end Sys2Proof.Machine
end

