-- ==== Sys2Proof/Machine/ConfigCheck.lean ====
section
/-! DEFINITION. The constraints a configuration must satisfy before reset (R265): the ROM rules of R56, the address rules
of R77, the field maps of R147, R150 and R152, and the ranges of R7.  Each broken constraint is named. -/

namespace Sys2Proof.Machine

/-- The eight command ROMs of R7. -/
inductive RomName
  | turnOn
  | turnOff
  | hotPress
  | hotRelease
  | recircOn
  | recircOff
  | presence
  | setTemp
  deriving DecidableEq, Repr

/-- The bytes of a ROM. -/
def romOf (p : Params) (r : RomName) : Frame :=
  match r with
  | .turnOn => p.romTurnOn
  | .turnOff => p.romTurnOff
  | .hotPress => p.romHotPress
  | .hotRelease => p.romHotRelease
  | .recircOn => p.romRecircOn
  | .recircOff => p.romRecircOff
  | .presence => p.romPresence
  | .setTemp => p.romSetTemp

/-- What is wrong with a configuration.  Each is a refusal of the configuration (R56, R265), safe: no operation ever
runs on it. -/
inductive ConfigError
  /-- R56 (a): not 7 to 64 bytes. -/
  | romLength (r : RomName)
  /-- R56 (b): byte 0 is not the marker. -/
  | romMarker (r : RomName)
  /-- R56 (c): the header `length` does not count the body. -/
  | romBodyLength (r : RomName)
  /-- R56 (d): not sent by CTRL_SRC in the control direction. -/
  | romAddress (r : RomName)
  /-- R56 (e): the burned-in checksum is wrong. -/
  | romChecksum (r : RomName)
  /-- R56 (f): TEMP_OFFSET names no body byte of ROM_SET_TEMP. -/
  | tempOffset
  /-- R77: DIR_STATUS = DIR_CONTROL. -/
  | sameDirections
  /-- R77: DST_WATER = DST_GAS. -/
  | sameDestinations
  /-- R77: CTRL_SRC is a status source. -/
  | ctrlSrcIsStatus
  /-- R147, R150: row `row` of the water table, counted from 0, has a descriptor its field does not admit. -/
  | waterField (row : Nat)
  /-- R147, R152: row `row` of the gas table, counted from 0, has a descriptor its field does not admit. -/
  | gasField (row : Nat)
  /-- R7: PRESENCE_INTERVAL is not in 1..255. -/
  | presenceInterval
  /-- R7: QUEUE_DEPTH is not in 2..31. -/
  | queueDepth
  deriving DecidableEq, Repr

/-- The descriptor kinds of the tables of R150 and R152. -/
inductive FieldKind
  /-- BYTE with a 1-bit mask. -/
  | flag
  /-- BYTE with mask 0xFF. -/
  | fullByte
  /-- BYTE with any legal mask. -/
  | code
  /-- WORD. -/
  | wordPair
  /-- WORD, or BYTE with mask 0xFF. -/
  | counter
  deriving DecidableEq, Repr

/-- The offset and mask rules of R147 for one descriptor. -/
def descLegal (d : FieldDesc) : Bool :=
  match d with
  | .absent => true
  | .byte off mask => decide (off ≤ Wire.offMax) && contiguous mask
  | .word hi lo => decide (hi ≤ Wire.offMax) && decide (lo ≤ Wire.offMax) && hi != lo

/-- Whether a field of kind `k` admits the descriptor; every field may be ABSENT (R150, R152). -/
def kindAdmits (k : FieldKind) (d : FieldDesc) : Bool :=
  match d, k with
  | .absent, _ => true
  | .byte _ mask, .flag => popcount mask == 1
  | .byte _ mask, .fullByte => mask == 0xFF#8
  | .byte _ _, .code => true
  | .byte _ mask, .counter => mask == 0xFF#8
  | .byte _ _, .wordPair => false
  | .word _ _, .wordPair => true
  | .word _ _, .counter => true
  | .word _ _, .flag => false
  | .word _ _, .fullByte => false
  | .word _ _, .code => false

/-- The rows of the table of R150, in its order. -/
def waterRows (m : WaterMap) : List (FieldKind × FieldDesc) :=
  [(.flag, m.power), (.flag, m.recircInternalSched), (.flag, m.recircExternalSched),
   (.fullByte, m.dhwSetTemp), (.fullByte, m.dhwOutletTemp), (.fullByte, m.dhwInletTemp),
   (.fullByte, m.flow), (.fullByte, m.operatingCapacity), (.code, m.heatingMode), (.code, m.operatingState),
   (.flag, m.boilerActive), (.flag, m.recircHotButtonActive), (.flag, m.recircScheduleAllowed)]

/-- The rows of the table of R152, in its order. -/
def gasRows (m : GasMap) : List (FieldKind × FieldDesc) :=
  [(.code, m.deviceType), (.fullByte, m.controllerFwVersion), (.fullByte, m.panelFwVersion),
   (.fullByte, m.dhwSetTemp), (.fullByte, m.dhwOutletTemp), (.fullByte, m.dhwInletTemp),
   (.fullByte, m.shSetTemp), (.fullByte, m.shOutletTemp), (.fullByte, m.shReturnTemp),
   (.wordPair, m.gasCumulative), (.wordPair, m.gasInstant), (.fullByte, m.heatCapacity),
   (.counter, m.dhwUsageCount), (.counter, m.operatingTime), (.counter, m.dhwUsageHours),
   (.counter, m.shUsageHours), (.counter, m.daysSinceInstall),
   (.flag, m.displayUnits), (.flag, m.hotButtonEnabled)]

/-- `MIN_LEN(WATER_MAP)` (R147). -/
def waterMinLen (m : WaterMap) : Nat := minLen ((waterRows m).map (·.2))

/-- `MIN_LEN(GAS_MAP)` (R147). -/
def gasMinLen (m : GasMap) : Nat := minLen ((gasRows m).map (·.2))

/-- The numbers of the rows, counted from `start`, whose descriptor is not admitted. -/
def badRows (start : Nat) (rows : List (FieldKind × FieldDesc)) : List Nat :=
  match rows with
  | [] => []
  | (k, d) :: rest =>
    if descLegal d && kindAdmits k d then badRows (start + 1) rest else start :: badRows (start + 1) rest

/-- `slot(src) = (src - STATUS_SRC_BASE) mod 256` (R203). -/
def slotOf (p : Params) (src : Byte) : Nat := (src - p.statusSrcBase).toNat

/-- Whether `src` is in the status source set `S`, the 16 addresses that map to slots (R77, R143). -/
def isStatusSrc (p : Params) (src : Byte) : Bool := decide (slotOf p src < Wire.nSlots)

/-- The name of a constraint when it is broken. -/
def requireThat (holds : Bool) (e : ConfigError) : List ConfigError := if holds then [] else [e]

/-- The broken constraints of R56 (a) to (e) for one ROM. -/
def romViolations (p : Params) (r : RomName) : List ConfigError :=
  let f := romOf p r
  let n := f.length
  requireThat (decide (7 ≤ n) && decide (n ≤ Wire.cmdMax)) (.romLength r)
    ++ requireThat (byteAt f 0 == Wire.marker) (.romMarker r)
    ++ requireThat ((byteAt f 5).toNat + 7 == n) (.romBodyLength r)
    ++ requireThat (byteAt f 2 == p.ctrlSrc && byteAt f 4 == p.dirControl) (.romAddress r)
    ++ requireThat (r == .setTemp || byteAt f (n - 1) == checksum f (n - 1) Wire.seedOther) (.romChecksum r)

/-- Every broken constraint of a configuration, by name (R265); a legal one breaks none. -/
def violations (p : Params) : List ConfigError :=
  [RomName.turnOn, .turnOff, .hotPress, .hotRelease, .recircOn, .recircOff, .presence, .setTemp].flatMap
      (romViolations p)
    ++ requireThat (decide (6 ≤ p.tempOffset) && decide (p.tempOffset + 2 ≤ p.romSetTemp.length)) .tempOffset
    ++ requireThat (p.dirStatus != p.dirControl) .sameDirections
    ++ requireThat (p.dstWater != p.dstGas) .sameDestinations
    ++ requireThat (!isStatusSrc p p.ctrlSrc) .ctrlSrcIsStatus
    ++ (badRows 0 (waterRows p.waterMap)).map .waterField
    ++ (badRows 0 (gasRows p.gasMap)).map .gasField
    ++ requireThat (decide (1 ≤ p.presenceInterval) && decide (p.presenceInterval ≤ 255)) .presenceInterval
    ++ requireThat (decide (2 ≤ p.queueDepth) && decide (p.queueDepth ≤ 31)) .queueDepth

end Sys2Proof.Machine
end

