-- ==== Sys2Proof/Config.lean ====
section
/-! DEFINITION. A configuration of the block: the OPEN parameters of R7 together with the proof that they satisfy the
constraints of R265, so that no operation can run on one that breaks them.  `Config.installed` is the configuration the
machine after reset holds: a constant with no body, so that a claim about it holds for every legal configuration. -/

namespace Sys2Proof

/-- Parameters that break no constraint (R56, R77, R147, R265). -/
structure Config where
  params : Params := Params.ex1
  ok : Machine.violations params = [] := by decide
  deriving DecidableEq, Repr, Inhabited

/-- The example configuration EX1 (R8): for tests only. -/
def Config.ex1 : Config := { params := Params.ex1 }

/-- A configuration from parameters, or the names of the constraints they break: the refusal of R56, R77 and R265. -/
def Config.ofParams (p : Params) : Except (List Machine.ConfigError) Config :=
  if h : Machine.violations p = [] then .ok ⟨p, h⟩ else .error (Machine.violations p)

/-- The configuration fixed before the first reset (R33, R264 (1)).  It has no body: every OPEN parameter is free within
the constraints.  DESIGN CHOICE (notes/assumptions/1.md), safe. -/
opaque Config.installed : Config

/-- The source's version string for a raw byte of 100 or more, which no source determines (R157; I5 of
spec/93_implementation_defined.md): any value.  A free value with no body (notes/assumptions/6.md), safe. -/
opaque Config.versionTextBeyond : Nat → List Char

end Sys2Proof
end

