-- ==== Sys2Proof/Syntax.lean ====
section
/-! DEFINITION. The operations of the port, one constructor per row of spec/opcode_table.json (R82), and the lines of
the assembler that stand for them (R86, R87). -/

namespace Sys2Proof

/-- One operation, the block's analogue of an instruction (R82).  Operands are held at the widths of R81, so an
out-of-range slot, handle or argument cannot be written. -/
inductive Instr
  /-- OPC 0x00: nothing (R215). -/
  | nop
  /-- OPC 0x01: run the framer once (R110). -/
  | poll
  /-- OPC 0x02: bind a visitor handle to a slot (R200). -/
  | register (slot : Fin 16) (handle : Byte)
  /-- OPC 0x03: broadcast `on_error` to every registered slot (R207). -/
  | commLoss
  /-- OPC 0x04: clear the sticky error flags (R216). -/
  | clrerr
  /-- OPC 0x10: enqueue ROM_TURN_ON twice (R172). -/
  | turnOn
  /-- OPC 0x11: enqueue ROM_TURN_OFF twice (R173). -/
  | turnOff
  /-- OPC 0x12: enqueue ROM_HOT_PRESS then ROM_HOT_RELEASE (R174). -/
  | hotButton
  /-- OPC 0x13: enqueue a rendered set-temperature frame, the operand in 0.01 degrees Celsius (R175). -/
  | setTemp (centi : Half)
  /-- OPC 0x14: enqueue ROM_RECIRC_ON (R177). -/
  | recircOn
  /-- OPC 0x15: enqueue ROM_RECIRC_OFF (R178). -/
  | recircOff
  deriving DecidableEq, Repr

/-- One line of the assembler (R86) or one of its two pseudo-operations (R87).  Numbers are as written, not yet checked:
`AsmLine.wellFormed` (WellFormed.lean) checks the ranges the rules state. -/
inductive AsmLine
  | nop
  | poll
  | register (slot handle : Nat)
  | commLoss
  | clrerr
  | turnOn
  | turnOff
  | hotButton
  | setTemp (centi : Nat)
  | recircOn
  | recircOff
  /-- `SET_TEMP_C whole.frac`: a decimal Celsius value, its fraction digits in order (R87 (a)). -/
  | setTempC (whole : Nat) (frac : List Nat)
  /-- `POLLN n` (R87 (b)). -/
  | polln (n : Nat)
  deriving DecidableEq, Repr

end Sys2Proof
end

