-- ==== Sys2Proof/WellFormed.lean ====
section
/-! DEFINITION. What well formed means: for an operation (R81: its operands cannot be out of range, so every term is), for
an assembler line (the ranges of R86 and R87), for a wire frame (R70) and for a command frame (R28, R56, R88). -/

namespace Sys2Proof

/-- Every operation is well formed: the types of its operands are the widths of R81. -/
def Instr.wellFormed (i : Instr) : Bool :=
  match i with
  | .nop => true
  | .poll => true
  | .register slot _ => decide (slot.val < Wire.nSlots)
  | .commLoss => true
  | .clrerr => true
  | .turnOn => true
  | .turnOff => true
  | .hotButton => true
  | .setTemp _ => true
  | .recircOn => true
  | .recircOff => true

/-- The ranges R86 and R87 state for an assembler line. -/
def AsmLine.wellFormed (l : AsmLine) : Bool :=
  match l with
  | .register slot handle => decide (slot ≤ 15) && decide (handle ≤ 255)
  | .setTemp centi => decide (centi ≤ 65535)
  | .setTempC whole frac =>
    decide (frac.length ≤ 2) && frac.all (fun d => decide (d ≤ 9)) && decide (Machine.centiOfDecimal whole frac ≤ 65535)
  | .polln n => decide (1 ≤ n)
  | .nop => true
  | .poll => true
  | .commLoss => true
  | .clrerr => true
  | .turnOn => true
  | .turnOff => true
  | .hotButton => true
  | .recircOn => true
  | .recircOff => true

/-- A complete frame: marker first, `length` counting the body only, one checksum byte, at most FRAME_MAX bytes
(R70, R71, R75). -/
def frameWellFormed (f : Frame) : Bool :=
  Machine.byteAt f 0 == Wire.marker && f.length == (Machine.byteAt f 5).toNat + 7 && decide (f.length ≤ Wire.frameMax)

/-- A frame the block may queue: a control frame from CTRL_SRC of at most CMD_MAX bytes whose last byte is its checksum
under SEED_OTHER (R28, R56, R88). -/
def commandWellFormed (p : Params) (f : Frame) : Bool :=
  frameWellFormed f && decide (f.length ≤ Wire.cmdMax)
    && Machine.byteAt f 2 == p.ctrlSrc && Machine.byteAt f 4 == p.dirControl
    && Machine.byteAt f (f.length - 1) == Machine.checksum f (f.length - 1) Wire.seedOther

end Sys2Proof
end

