-- ==== Sys2Proof/Decode.lean ====
section
/-! DEFINITION. The operation word: the decoder of R80 to R85, total and refusing by name, and after it the encoder of R86. -/

namespace Sys2Proof

/-- Why a word is no operation of R82. -/
inductive DecodeError
  /-- OPC is one of the 245 reserved values (R83).  The port still completes the word, as R217 says (Machine/HostPort.lean). -/
  | reservedOpcode (opc : Byte)
  deriving DecidableEq, Repr

/-- The operation a word stands for: decoding uses OPC alone, and a field the operation does not use is ignored
(R82, R84). -/
def decode (w : Word) : Except DecodeError Instr :=
  match Machine.opcField w with
  | 0x00#8 => .ok .nop
  | 0x01#8 => .ok .poll
  | 0x02#8 => .ok (.register (Machine.slotField w) (Machine.handleField w))
  | 0x03#8 => .ok .commLoss
  | 0x04#8 => .ok .clrerr
  | 0x10#8 => .ok .turnOn
  | 0x11#8 => .ok .turnOff
  | 0x12#8 => .ok .hotButton
  | 0x13#8 => .ok (.setTemp (Machine.argField w))
  | 0x14#8 => .ok .recircOn
  | 0x15#8 => .ok .recircOff
  | opc => .error (.reservedOpcode opc)

/-- The word of an instruction as the opcode table numbers its bits; the bits above `nbits` are 0.  The port takes one
32-bit word whole, so there is no byte order to choose (R85). -/
def tableWord (nbits w : Nat) : Word := BitVec.ofNat 32 (w % 2 ^ nbits)

/-- The instruction the decoder reads from an instruction whose bits are `w`, as the opcode table numbers them. -/
def decodeTableWord (nbits w : Nat) : Option Instr :=
  match decode (tableWord nbits w) with
  | .ok i => some i
  | .error _ => none

/-- The OPC value of an operation (R82). -/
def opcodeOf (i : Instr) : Byte :=
  match i with
  | .nop => 0x00#8
  | .poll => 0x01#8
  | .register _ _ => 0x02#8
  | .commLoss => 0x03#8
  | .clrerr => 0x04#8
  | .turnOn => 0x10#8
  | .turnOff => 0x11#8
  | .hotButton => 0x12#8
  | .setTemp _ => 0x13#8
  | .recircOn => 0x14#8
  | .recircOff => 0x15#8

/-- The bits of a word above OPC: SLOT and HANDLE of REGISTER, ARG of SET_TEMP, 0 otherwise (R86). -/
def operandBits (i : Instr) : Word :=
  match i with
  | .register slot handle => (BitVec.ofNat 32 slot.val <<< 8) ||| (handle.setWidth 32 <<< 16)
  | .setTemp centi => centi.setWidth 32 <<< 16
  | .nop => 0#32
  | .poll => 0#32
  | .commLoss => 0#32
  | .clrerr => 0#32
  | .turnOn => 0#32
  | .turnOff => 0#32
  | .hotButton => 0#32
  | .recircOn => 0#32
  | .recircOff => 0#32

/-- The word of an operation: `OPC | (slot << 8) | (handle << 16)` for REGISTER, `OPC | (centi << 16)` for SET_TEMP and
`OPC` otherwise (R86). -/
def encode (i : Instr) : Word := (opcodeOf i).setWidth 32 ||| operandBits i

end Sys2Proof
end

