-- ==== Sys2Proof/Machine/State.lean ====
section
/-! DEFINITION. The state of the block (spec/10_state.md R22 to R32), what a model holds beside it (R34), the host's and
the bus's schedule (R9, R251), and the value of each after reset (R260).  Plain data throughout. -/

namespace Sys2Proof.Machine

/-- `st.rx_state`, one of the three states of the framer (R22). -/
inductive RxState
  | initial
  | markerFound
  | headerParsed
  deriving DecidableEq, Repr

/-- `st.hdr`, the six bytes of the last header consumed, by name (R23). -/
structure Header where
  /-- `hdr[0]`. -/
  marker : Byte
  /-- `hdr[1]`. -/
  systemType : Byte
  /-- `hdr[2]`, `source_address`. -/
  src : Byte
  /-- `hdr[3]`, `destination_address`. -/
  dst : Byte
  /-- `hdr[4]`, `direction`. -/
  dir : Byte
  /-- `hdr[5]`, the body byte count `L`. -/
  length : Byte
  deriving DecidableEq, Repr

/-- The five sticky error flags (R30). -/
structure ErrFlags where
  qOvf : Bool
  lenErr : Bool
  csumErr : Bool
  badOp : Bool
  argErr : Bool
  deriving DecidableEq, Repr

/-- The four event counters, each modulo 2^16 (R32). -/
structure Counters where
  /-- `rx_ok_cnt`, accepted frames. -/
  rxOk : Half
  /-- `csum_err_cnt`, checksum mismatches. -/
  csumErr : Half
  /-- `len_err_cnt`, header rejections. -/
  lenErr : Half
  /-- `tx_cnt`, frames emitted on the byte sink. -/
  tx : Half
  deriving DecidableEq, Repr

/-- The outcome codes `st.last_cause` can hold (R31, R230); `causeCode` gives their values. -/
inductive Cause
  | noCause
  | rxWater
  | rxGas
  | rxNoVisitor
  | rxSrcRange
  | rxUnknownDst
  | rxShort
  | rxControl
  | rxPresence
  | rxForeignCtrl
  | rxUnknownDir
  | errCsum
  | errLen
  | errQOvf
  | errTempRange
  | errBadOp
  deriving DecidableEq, Repr

/-- A firmware version field: the raw byte and the two digits the block emits with it (R157). -/
structure VersionValue where
  raw : FieldValue
  verMajor : Nat
  verMinor : Nat
  deriving DecidableEq, Repr

/-- A WaterFields record (R150); `raw` is the body exactly as received (R158). -/
structure WaterFields where
  power : Option FieldValue
  recircInternalSched : Option FieldValue
  recircExternalSched : Option FieldValue
  dhwSetTemp : Option FieldValue
  dhwOutletTemp : Option FieldValue
  dhwInletTemp : Option FieldValue
  flow : Option FieldValue
  operatingCapacity : Option FieldValue
  heatingMode : Option FieldValue
  operatingState : Option FieldValue
  boilerActive : Option FieldValue
  recircHotButtonActive : Option FieldValue
  recircScheduleAllowed : Option FieldValue
  raw : List Byte
  deriving DecidableEq, Repr

/-- A GasFields record (R152); `raw` is the body exactly as received (R158). -/
structure GasFields where
  deviceType : Option FieldValue
  controllerFwVersion : Option VersionValue
  panelFwVersion : Option VersionValue
  dhwSetTemp : Option FieldValue
  dhwOutletTemp : Option FieldValue
  dhwInletTemp : Option FieldValue
  shSetTemp : Option FieldValue
  shOutletTemp : Option FieldValue
  shReturnTemp : Option FieldValue
  gasCumulative : Option FieldValue
  gasInstant : Option FieldValue
  heatCapacity : Option FieldValue
  dhwUsageCount : Option FieldValue
  operatingTime : Option FieldValue
  dhwUsageHours : Option FieldValue
  shUsageHours : Option FieldValue
  daysSinceInstall : Option FieldValue
  displayUnits : Option FieldValue
  hotButtonEnabled : Option FieldValue
  raw : List Byte
  deriving DecidableEq, Repr

/-- A visitor event (R205).  ERROR carries no source address (R209). -/
inductive Event
  | water (slot : Fin 16) (handle src : Byte) (fields : WaterFields)
  | gas (slot : Fin 16) (handle src : Byte) (fields : GasFields)
  | error (slot : Fin 16) (handle : Byte)
  deriving DecidableEq, Repr

/-- An item of the output history (R34). -/
inductive Item
  /-- `TX(s)`: the frame `s` sent on the byte sink. -/
  | tx (frame : Frame)
  /-- `EV(e)`: a visitor notification. -/
  | ev (event : Event)
  deriving DecidableEq, Repr

/-- One action of an agent outside the block, at one of its ports (R9, R245). -/
inductive Input
  /-- The host writes one word to the operation port (R80). -/
  | operation (word : Word)
  /-- The bus appends received bytes to the byte source (R247). -/
  | arrival (bytes : List Byte)
  /-- The host reads a register (R220). -/
  | registerRead (addr : Byte)
  /-- The reset input is asserted, between operations (R260). -/
  | hostReset
  deriving DecidableEq, Repr

/-- Everything the spec gives the machine, and beside it what a run needs: the configuration, the byte source, the output
history, and the agents' schedule. -/
structure State where
  /-- The configuration: fixed before reset, written by no step (R33). -/
  cfg : Config
  /-- `st.rx_state` (R22). -/
  rxState : RxState
  /-- `st.hdr` (R23). -/
  hdr : Header
  /-- `st.body`, 128 bytes (R24). -/
  body : Vector Byte 128
  /-- `st.other_present` (R26). -/
  otherPresent : Bool
  /-- `st.hb_cnt` (R27). -/
  hbCnt : Byte
  /-- `st.queue`, head first; `st.q_count` is its length (R28). -/
  queue : List Frame
  /-- `st.vis_valid[15:0]` (R29). -/
  visValid : BitVec 16
  /-- `st.vis_handle[0..15]` (R29). -/
  visHandle : Vector Byte 16
  /-- `st.q_ovf`, `st.len_err`, `st.csum_err`, `st.bad_op`, `st.arg_err` (R30). -/
  flags : ErrFlags
  /-- `st.last_cause` (R31). -/
  lastCause : Cause
  /-- `st.rx_ok_cnt`, `st.csum_err_cnt`, `st.len_err_cnt`, `st.tx_cnt` (R32). -/
  counters : Counters
  /-- The byte source: the unread received bytes in arrival order (R34 (a)). -/
  source : List Byte
  /-- The output history in emission order (R34 (b)). -/
  history : List Item
  /-- The MODEL's own: what the agents will still do, in order (R9, R251). -/
  schedule : List Input
  /-- The MODEL's own: what the register read port has answered, in order (R220). -/
  reads : List (Byte × Word)
  deriving DecidableEq, Repr

/-- The reasons a step could stop.  There are none: the block has no trap mechanism and every operation completes
(R218, R231, R236), so nothing raises a fault. -/
inductive Fault
  deriving DecidableEq, Repr

/-- The reasons an instruction could be without a meaning. -/
inductive Refusal
  /-- Raised by an arm of `exec` whose instruction has no meaning yet: safe.  No arm raises it. -/
  | notModelled (mnemonic : String)
  deriving DecidableEq, Repr

/-- The state right after reset with configuration `c`: every element at its value of the table of R260, the byte source
and the output history empty, nothing scheduled. -/
def State.resetWith (c : Config) : State where
  cfg := c
  rxState := .initial
  hdr := ⟨0x00#8, 0x00#8, 0x00#8, 0x00#8, 0x00#8, 0x00#8⟩
  body := Vector.replicate 128 0x00#8
  otherPresent := false
  hbCnt := 0x00#8
  queue := []
  visValid := 0x0000#16
  visHandle := Vector.replicate 16 0x00#8
  flags := ⟨false, false, false, false, false⟩
  lastCause := .noCause
  counters := ⟨0x0000#16, 0x0000#16, 0x0000#16, 0x0000#16⟩
  source := []
  history := []
  schedule := []
  reads := []

/-- The machine right after reset (R260), with the configuration that was fixed before it (R264). -/
def State.reset : State := State.resetWith Config.installed

end Sys2Proof.Machine
end

