-- ==== Sys2Proof/Machine/Flags.lean ====
section
/-! DEFINITION. What is recorded of an outcome: the codes of R230, the sticky flags of R30, the counters of R32, and the
STATUS register they are read through (R36). -/

namespace Sys2Proof.Machine

/-- The value of an outcome code (R230). -/
def causeCode (c : Cause) : Byte :=
  match c with
  | .noCause => 0x00#8
  | .rxWater => 0x01#8
  | .rxGas => 0x02#8
  | .rxNoVisitor => 0x03#8
  | .rxSrcRange => 0x04#8
  | .rxUnknownDst => 0x05#8
  | .rxShort => 0x06#8
  | .rxControl => 0x07#8
  | .rxPresence => 0x08#8
  | .rxForeignCtrl => 0x09#8
  | .rxUnknownDir => 0x0A#8
  | .errCsum => 0x10#8
  | .errLen => 0x11#8
  | .errQOvf => 0x20#8
  | .errTempRange => 0x21#8
  | .errBadOp => 0x22#8

/-- The 2-bit encoding of `rx_state` (R22). -/
def rxCode (r : RxState) : BitVec 2 :=
  match r with
  | .initial => 0#2
  | .markerFound => 1#2
  | .headerParsed => 2#2

/-- `q_ovf <- 1` (R171). -/
def ErrFlags.raiseQOvf (f : ErrFlags) : ErrFlags := { f with qOvf := true }

/-- `len_err <- 1` (R117). -/
def ErrFlags.raiseLenErr (f : ErrFlags) : ErrFlags := { f with lenErr := true }

/-- `csum_err <- 1` (R142). -/
def ErrFlags.raiseCsumErr (f : ErrFlags) : ErrFlags := { f with csumErr := true }

/-- `bad_op <- 1` (R217). -/
def ErrFlags.raiseBadOp (f : ErrFlags) : ErrFlags := { f with badOp := true }

/-- `arg_err <- 1` (R176). -/
def ErrFlags.raiseArgErr (f : ErrFlags) : ErrFlags := { f with argErr := true }

/-- All five flags 0 (R216). -/
def ErrFlags.clear (_ : ErrFlags) : ErrFlags := ⟨false, false, false, false, false⟩

/-- `rx_ok_cnt <- (rx_ok_cnt + 1) mod 2^16` (R141). -/
def Counters.bumpRxOk (c : Counters) : Counters := { c with rxOk := c.rxOk + 1#16 }

/-- `csum_err_cnt <- (csum_err_cnt + 1) mod 2^16` (R142). -/
def Counters.bumpCsumErr (c : Counters) : Counters := { c with csumErr := c.csumErr + 1#16 }

/-- `len_err_cnt <- (len_err_cnt + 1) mod 2^16` (R117). -/
def Counters.bumpLenErr (c : Counters) : Counters := { c with lenErr := c.lenErr + 1#16 }

/-- `tx_cnt <- (tx_cnt + 1) mod 2^16` (R184). -/
def Counters.bumpTx (c : Counters) : Counters := { c with tx := c.tx + 1#16 }

/-- STATUS, from bit 31 down to bit 0 (R36). -/
def statusWord (s : State) : Word :=
  s.hbCnt ++ BitVec.ofNat 8 s.queue.length ++ causeCode s.lastCause
    ++ BitVec.ofBool s.flags.argErr ++ BitVec.ofBool s.flags.badOp ++ BitVec.ofBool s.flags.csumErr
    ++ BitVec.ofBool s.flags.lenErr ++ BitVec.ofBool s.flags.qOvf ++ BitVec.ofBool s.otherPresent
    ++ rxCode s.rxState

end Sys2Proof.Machine
end

