-- ==== Sys2Proof/Machine/Ops.lean ====
section
/-! DEFINITION. The named operations over the state: one per state element a rule writes, the primitives of 00_scope.md
section 5 (`Avail`, `Read`, `Emit_TX`, `Emit_EV`, `Cause`), the bytes of a frame, transmission (R184), the error outcomes
and reset.  The block has no exceptions to take and none to return from (R236, R237): recording an error outcome,
`State.recordError`, is the one shared operation that stands in their place. -/

namespace Sys2Proof.Machine

/-- `st.rx_state <- r`. -/
def State.withRx (s : State) (r : RxState) : State := { s with rxState := r }

/-- `st.hdr <- h`. -/
def State.withHdr (s : State) (h : Header) : State := { s with hdr := h }

/-- `st.body <- b`. -/
def State.withBody (s : State) (b : Vector Byte 128) : State := { s with body := b }

/-- `st.other_present <- b`. -/
def State.withOtherPresent (s : State) (b : Bool) : State := { s with otherPresent := b }

/-- `st.hb_cnt <- n`. -/
def State.withHbCnt (s : State) (n : Byte) : State := { s with hbCnt := n }

/-- `st.queue <- q`, and with it `st.q_count`. -/
def State.withQueue (s : State) (q : List Frame) : State := { s with queue := q }

/-- `st.vis_valid[k] <- 1; st.vis_handle[k] <- h`. -/
def State.withVisitor (s : State) (k : Fin 16) (h : Byte) : State :=
  { s with visValid := s.visValid ||| BitVec.twoPow 16 k.val, visHandle := s.visHandle.set k.val h }

/-- Write the sticky flags. -/
def State.withFlags (s : State) (f : ErrFlags) : State := { s with flags := f }

/-- `Cause(c)`: `st.last_cause <- c`. -/
def State.withCause (s : State) (c : Cause) : State := { s with lastCause := c }

/-- Write the event counters. -/
def State.withCounters (s : State) (c : Counters) : State := { s with counters := c }

/-- The byte source left after a read or an arrival. -/
def State.withSource (s : State) (b : List Byte) : State := { s with source := b }

/-- Append items to the output history. -/
def State.emit (s : State) (items : List Item) : State := { s with history := s.history ++ items }

/-- What the agents will still do. -/
def State.withSchedule (s : State) (i : List Input) : State := { s with schedule := i }

/-- The register read port answers. -/
def State.answer (s : State) (a : Byte) (w : Word) : State := { s with reads := s.reads ++ [(a, w)] }

/-- `Avail()` (R57). -/
def State.avail (s : State) : Nat := s.source.length

/-- `Read(n)` consumes the next `n` bytes (R57, R59); it is called only with `Avail() >= n`. -/
def State.consume (s : State) (n : Nat) : State := s.withSource (s.source.drop n)

/-- Whether slot `k` is registered (R29). -/
def State.registered (s : State) (k : Fin 16) : Bool := s.visValid.getLsbD k.val

/-- The handle of slot `k` (R29). -/
def State.handleOf (s : State) (k : Fin 16) : Byte := s.visHandle[k.val]

/-- The header from its six bytes, in wire order (R23, R72). -/
def headerOfBytes (bs : List Byte) : Header :=
  ⟨byteAt bs 0, byteAt bs 1, byteAt bs 2, byteAt bs 3, byteAt bs 4, byteAt bs 5⟩

/-- The six bytes of a header, in wire order (R52, R72). -/
def headerBytes (h : Header) : List Byte := [h.marker, h.systemType, h.src, h.dst, h.dir, h.length]

/-- The payload buffer after `bytes` are written to it from index 0; the rest keeps its value (R24, R119). -/
def writeBody (old : Vector Byte 128) (bytes : List Byte) : Vector Byte 128 :=
  Vector.ofFn fun i => (bytes[i.val]?).getD old[i]

/-- `L`, the body length of the header held (R71). -/
def State.bodyLen (s : State) : Nat := s.hdr.length.toNat

/-- `st.body[0..L)`: the body of the frame held, the checksum byte excluded (R158). -/
def State.bodyBytes (s : State) : List Byte := s.body.toList.take s.bodyLen

/-- `F = st.hdr ++ st.body[0..L+1)`: the complete frame (R120). -/
def State.frame (s : State) : Frame := headerBytes s.hdr ++ s.body.toList.take (s.bodyLen + 1)

/-- `cs = body[L]`: the checksum byte of the frame held (R72). -/
def State.frameChecksum (s : State) : Byte := byteAt s.body.toList s.bodyLen

/-- `Transmit(s)`: the frame goes to the byte sink whole and is counted (R184). -/
def State.transmit (s : State) (f : Frame) : State :=
  (s.emit [.tx f]).withCounters s.counters.bumpTx

/-- An error outcome is recorded and nothing else happens: a sticky flag and the outcome code (R30, R31, R231). -/
def State.recordError (s : State) (f : ErrFlags) (c : Cause) : State := (s.withFlags f).withCause c

/-- A reserved opcode: BAD_OP, no trap and no stall (R217). -/
def State.badOp (s : State) : State := s.recordError s.flags.raiseBadOp .errBadOp

/-- Enqueue a list of frames, all or nothing (R171). -/
def State.enqueue (s : State) (frames : List Frame) : State :=
  if s.queue.length + frames.length > s.cfg.params.queueDepth then
    s.recordError s.flags.raiseQOvf .errQOvf
  else s.withQueue (s.queue ++ frames)

/-- The bus appends bytes at the tail of the byte source (R247). -/
def State.arrive (s : State) (bytes : List Byte) : State := s.withSource (s.source ++ bytes)

/-- The reset input: every element of R260 at its reset value; the byte source and the output history are not touched
(R262), and neither are the configuration (R33) and the agents' own records. -/
def State.hostReset (s : State) : State :=
  { State.resetWith s.cfg with
    source := s.source, history := s.history, schedule := s.schedule, reads := s.reads }

end Sys2Proof.Machine
end

