-- ==== Sys2Proof/Machine/Commands.lean ====
section
/-! DEFINITION. The command operations (spec/43_command_queue.md R172 to R178). -/

namespace Sys2Proof.Machine

/-- TURN_ON (R172): the frame is queued twice. -/
def execTurnOn (s : State) : Host.Outcome State Fault Refusal :=
  .next (s.enqueue [s.cfg.params.romTurnOn, s.cfg.params.romTurnOn])

/-- TURN_OFF (R173): the frame is queued twice. -/
def execTurnOff (s : State) : Host.Outcome State Fault Refusal :=
  .next (s.enqueue [s.cfg.params.romTurnOff, s.cfg.params.romTurnOff])

/-- HOT_BUTTON (R174): press, then release. -/
def execHotButton (s : State) : Host.Outcome State Fault Refusal :=
  .next (s.enqueue [s.cfg.params.romHotPress, s.cfg.params.romHotRelease])

/-- `(centi + 25) div 50`: the half-degree value, halves rounded up (R175). -/
def tempByte (centi : Half) : Nat := (centi.toNat + 25) / 50

/-- The set-temperature frame for the half-degree value `t`: a copy of the template with its temperature byte and its
checksum rewritten (R175). -/
def renderSetTemp (p : Params) (t : Byte) : Frame :=
  let f := p.romSetTemp.set p.tempOffset t
  f.set (f.length - 1) (checksum f (f.length - 1) Wire.seedOther)

/-- `SET_TEMP(centi)` of R175: the range check (R176) precedes the space check (R234). -/
def State.setTemp (s : State) (centi : Half) : State :=
  if tempByte centi > 255 then s.recordError s.flags.raiseArgErr .errTempRange
  else s.enqueue [renderSetTemp s.cfg.params (BitVec.ofNat 8 (tempByte centi))]

/-- SET_TEMP (R175). -/
def execSetTemp (centi : Half) (s : State) : Host.Outcome State Fault Refusal := .next (s.setTemp centi)

/-- RECIRC_ON (R177): one frame. -/
def execRecircOn (s : State) : Host.Outcome State Fault Refusal :=
  .next (s.enqueue [s.cfg.params.romRecircOn])

/-- RECIRC_OFF (R178): one frame. -/
def execRecircOff (s : State) : Host.Outcome State Fault Refusal :=
  .next (s.enqueue [s.cfg.params.romRecircOff])

end Sys2Proof.Machine
end

