-- ==== Sys2Proof/Machine/Arbiter.lean ====
section
/-! DEFINITION. Presence detection and the bus arbiter (spec/43_command_queue.md R179 to R184). -/

namespace Sys2Proof.Machine

/-- What classification answers of a complete frame (R140, R180). -/
inductive Completion
  /-- NOT_ACCEPTED: a checksum mismatch or a foreign-source control frame. -/
  | notAccepted
  /-- ACCEPTED, with `foreign_presence` false. -/
  | accepted
  /-- ACCEPTED, and a foreign presence frame. -/
  | foreignPresence
  deriving DecidableEq, Repr

/-- `IsPresenceShape(F)`: header bytes 1 to 5 equal those of ROM_PRESENCE; the body is not compared (R179). -/
def State.isPresenceShape (s : State) : Bool :=
  (headerBytes s.hdr).drop 1 == (s.cfg.params.romPresence.take 6).drop 1

/-- `Presence()` of R180, run for an accepted control frame. -/
def State.presence (s : State) : Completion × State :=
  if s.isPresenceShape then
    (.foreignPresence, (s.withOtherPresent true).withCause .rxPresence)
  else (.accepted, s.withCause .rxControl)

/-- `hb_cnt <- min(hb_cnt + 1, PRESENCE_INTERVAL)`, computed without wrap (R182, R183). -/
def State.heartbeat (s : State) : State :=
  s.withHbCnt (BitVec.ofNat 8 (min (s.hbCnt.toNat + 1) s.cfg.params.presenceInterval))

/-- The transmission of one TX opportunity: a queued command before a presence frame, at most one frame (R182). -/
def State.sendOne (s : State) : State :=
  match s.queue with
  | f :: rest => (s.transmit f).withQueue rest
  | [] =>
    if s.otherPresent = false ∧ s.hbCnt.toNat = s.cfg.params.presenceInterval then
      (s.transmit s.cfg.params.romPresence).withHbCnt 0x00#8
    else s

/-- `Arbiter(accepted, foreign_presence)` of R182; which completions are TX opportunities is R181. -/
def State.arbiter (s : State) (c : Completion) : State :=
  match c with
  | .notAccepted => s
  | .accepted => if s.otherPresent then s else s.heartbeat.sendOne
  | .foreignPresence => if s.otherPresent then s.sendOne else s.heartbeat.sendOne

end Sys2Proof.Machine
end

