-- ==== Sys2Proof/Machine/Visitors.lean ====
section
/-! DEFINITION. The visitor dispatch multiplexer (spec/44_dispatch.md): REGISTER, the dispatch of a decoded record, and
COMM_LOSS. -/

namespace Sys2Proof.Machine

/-- A decoded record on its way to a visitor (R204). -/
inductive Decoded
  | water (fields : WaterFields)
  | gas (fields : GasFields)
  deriving DecidableEq, Repr

/-- The event a record becomes (R205 (a), (b)). -/
def decodedEvent (k : Fin 16) (handle src : Byte) (d : Decoded) : Event :=
  match d with
  | .water r => .water k handle src r
  | .gas r => .gas k handle src r

/-- The outcome of a dispatched record: RX_WATER or RX_GAS (R204). -/
def decodedCause (d : Decoded) : Cause :=
  match d with
  | .water _ => .rxWater
  | .gas _ => .rxGas

/-- `Dispatch(kind, rec)` of R204 for the frame held: to the slot of its source and no other (R210). -/
def State.dispatch (s : State) (d : Decoded) : State :=
  if h : slotOf s.cfg.params s.hdr.src < 16 then
    let k : Fin 16 := ⟨slotOf s.cfg.params s.hdr.src, h⟩
    if s.registered k then
      (s.emit [.ev (decodedEvent k (s.handleOf k) s.hdr.src d)]).withCause (decodedCause d)
    else s.withCause .rxNoVisitor
  else s.withCause .rxSrcRange

/-- The ERROR events of the broadcast, one per registered slot, in ascending slot order (R207, R208). -/
def State.lossEvents (s : State) : List Item :=
  (List.finRange 16).filterMap fun k =>
    if s.registered k then some (.ev (.error k (s.handleOf k))) else none

/-- REGISTER (R200): always succeeds, the last registration of a slot wins (R201). -/
def execRegister (slot : Fin 16) (handle : Byte) (s : State) : Host.Outcome State Fault Refusal :=
  .next (s.withVisitor slot handle)

/-- COMM_LOSS (R207): the output history only. -/
def execCommLoss (s : State) : Host.Outcome State Fault Refusal :=
  .next (s.emit s.lossEvents)

end Sys2Proof.Machine
end

