-- ==== Sys2Proof/Machine/Packet.lean ====
section
/-! DEFINITION. The packet decoder (spec/42_decoder.md): classification and validation, the field maps, the records. -/

namespace Sys2Proof.Machine

/-- `seed_for(src)` (R143): the seed depends on `src` only. -/
def seedFor (p : Params) (src : Byte) : Byte :=
  if isStatusSrc p src then Wire.seedStatus else Wire.seedOther

/-- The classes of the table of R78, from the header alone. -/
inductive FrameClass
  /-- Row 1: DIR_STATUS. -/
  | status
  /-- Row 2: DIR_CONTROL from CTRL_SRC. -/
  | control
  /-- Row 3: DIR_CONTROL from another source, never validated. -/
  | foreignControl
  /-- Row 4: any other direction. -/
  | otherDir
  deriving DecidableEq, Repr

/-- The class of a header, the first matching row of R78. -/
def frameClass (p : Params) (h : Header) : FrameClass :=
  if h.dir = p.dirStatus then .status
  else if h.dir = p.dirControl then
    if h.src = p.ctrlSrc then .control else .foreignControl
  else .otherDir

/-- A firmware version value: the raw byte with its digits `v div 10` and `v mod 10` (R157). -/
def versionValue (v : FieldValue) : VersionValue := ⟨v, v.raw / 10, v.raw % 10⟩

/-- `Extract(WATER, M)` from the body bytes (R148, R150, R158). -/
def extractWater (m : WaterMap) (body : List Byte) : WaterFields where
  power := fieldValue body m.power
  recircInternalSched := fieldValue body m.recircInternalSched
  recircExternalSched := fieldValue body m.recircExternalSched
  dhwSetTemp := fieldValue body m.dhwSetTemp
  dhwOutletTemp := fieldValue body m.dhwOutletTemp
  dhwInletTemp := fieldValue body m.dhwInletTemp
  flow := fieldValue body m.flow
  operatingCapacity := fieldValue body m.operatingCapacity
  heatingMode := fieldValue body m.heatingMode
  operatingState := fieldValue body m.operatingState
  boilerActive := fieldValue body m.boilerActive
  recircHotButtonActive := fieldValue body m.recircHotButtonActive
  recircScheduleAllowed := fieldValue body m.recircScheduleAllowed
  raw := body

/-- `Extract(GAS, M)` from the body bytes (R148, R152, R157, R158). -/
def extractGas (m : GasMap) (body : List Byte) : GasFields where
  deviceType := fieldValue body m.deviceType
  controllerFwVersion := (fieldValue body m.controllerFwVersion).map versionValue
  panelFwVersion := (fieldValue body m.panelFwVersion).map versionValue
  dhwSetTemp := fieldValue body m.dhwSetTemp
  dhwOutletTemp := fieldValue body m.dhwOutletTemp
  dhwInletTemp := fieldValue body m.dhwInletTemp
  shSetTemp := fieldValue body m.shSetTemp
  shOutletTemp := fieldValue body m.shOutletTemp
  shReturnTemp := fieldValue body m.shReturnTemp
  gasCumulative := fieldValue body m.gasCumulative
  gasInstant := fieldValue body m.gasInstant
  heatCapacity := fieldValue body m.heatCapacity
  dhwUsageCount := fieldValue body m.dhwUsageCount
  operatingTime := fieldValue body m.operatingTime
  dhwUsageHours := fieldValue body m.dhwUsageHours
  shUsageHours := fieldValue body m.shUsageHours
  daysSinceInstall := fieldValue body m.daysSinceInstall
  displayUnits := fieldValue body m.displayUnits
  hotButtonEnabled := fieldValue body m.hotButtonEnabled
  raw := body

/-- `DecodeWith(WATER, WATER_MAP)`: no partial decode (R146, R151). -/
def State.decodeWater (s : State) : State :=
  if s.bodyLen < waterMinLen s.cfg.params.waterMap then s.withCause .rxShort
  else s.dispatch (.water (extractWater s.cfg.params.waterMap s.bodyBytes))

/-- `DecodeWith(GAS, GAS_MAP)`: no partial decode (R146, R151). -/
def State.decodeGas (s : State) : State :=
  if s.bodyLen < gasMinLen s.cfg.params.gasMap then s.withCause .rxShort
  else s.dispatch (.gas (extractGas s.cfg.params.gasMap s.bodyBytes))

/-- `DecodeStatus()`: the payload interpretation goes by the destination address (R146). -/
def State.decodeStatus (s : State) : State :=
  if s.hdr.dst = s.cfg.params.dstWater then s.decodeWater
  else if s.hdr.dst = s.cfg.params.dstGas then s.decodeGas
  else s.withCause .rxUnknownDst

/-- The checksum byte of the frame held matches (R104, R140). -/
def State.checksumValid (s : State) : Bool :=
  checksum s.frame (6 + s.bodyLen) (seedFor s.cfg.params s.hdr.src) == s.frameChecksum

/-- `CsumMismatch()` (R142). -/
def State.csumMismatch (s : State) : State :=
  (s.recordError s.flags.raiseCsumErr .errCsum).withCounters s.counters.bumpCsumErr

/-- Validation, and on a match the accepted frame's own handling (R140, R141). -/
def State.validated (s : State) (accept : State → Completion × State) : Completion × State :=
  if s.checksumValid then accept (s.withCounters s.counters.bumpRxOk) else (.notAccepted, s.csumMismatch)

/-- `Classify()` of R140. -/
def State.classify (s : State) : Completion × State :=
  match frameClass s.cfg.params s.hdr with
  | .foreignControl => (.notAccepted, s.withCause .rxForeignCtrl)
  | .status => s.validated fun t => (.accepted, t.decodeStatus)
  | .control => s.validated State.presence
  | .otherDir => s.validated fun t => (.accepted, t.withCause .rxUnknownDir)

end Sys2Proof.Machine
end

