-- ==== Sys2Proof/Machine/Framer.lean ====
section
/-! DEFINITION. The byte-stream framer (spec/41_framer.md), run by POLL. -/

namespace Sys2Proof.Machine

/-- The bytes left when the scan stops: from the first marker on, or none (R112). -/
def scanBytes (bs : List Byte) : List Byte :=
  match bs with
  | [] => []
  | b :: rest => if b = Wire.marker then b :: rest else scanBytes rest

/-- `Scan()` (R112): the marker found is not consumed. -/
def State.scan (s : State) : State :=
  match scanBytes s.source with
  | [] => s.withSource []
  | b :: rest => (s.withSource (b :: rest)).withRx .markerFound

/-- `CheckLength()` (R117). -/
def State.checkLength (s : State) : State :=
  if s.bodyLen > Wire.lenMax then
    ((s.recordError s.flags.raiseLenErr .errLen).withCounters s.counters.bumpLenErr).withRx .initial
  else s

/-- `TakeHeader()` (R116). -/
def State.takeHeader (s : State) : State :=
  (((s.withHdr (headerOfBytes (s.source.take Wire.hdrSize))).consume Wire.hdrSize).withRx .headerParsed).checkLength

/-- `TakeBody(L)` (R119). -/
def State.takeBody (s : State) : State :=
  (s.withBody (writeBody s.body (s.source.take (s.bodyLen + 1)))).consume (s.bodyLen + 1)

/-- `CompleteFrame()` (R120), in the order of R121: classify, validate, decode and dispatch, then the arbiter. -/
def State.completeFrame (s : State) : State :=
  (s.classify).2.arbiter (s.classify).1

/-- The INITIAL part of POLL (R110, R112). -/
def State.pollScan (s : State) : State :=
  match s.rxState with
  | .initial => s.scan
  | .markerFound => s
  | .headerParsed => s

/-- The MARKER_FOUND part of POLL (R110, R114). -/
def State.pollHeader (s : State) : State :=
  match s.rxState with
  | .initial => s
  | .markerFound => if s.avail < Wire.hdrSize then s else s.takeHeader
  | .headerParsed => s

/-- The HEADER_PARSED part of POLL (R110, R118, R122). -/
def State.pollBody (s : State) : State :=
  match s.rxState with
  | .initial => s
  | .markerFound => s
  | .headerParsed => if s.avail < s.bodyLen + 1 then s else s.takeBody.completeFrame.withRx .initial

/-- `POLL()` of R110: each state falls through to the next when enough bytes are there; at most one frame attempt ends
(R111). -/
def State.poll (s : State) : State := s.pollScan.pollHeader.pollBody

/-- POLL (R110). -/
def execPoll (s : State) : Host.Outcome State Fault Refusal := .next s.poll

end Sys2Proof.Machine
end

