-- ==== Sys2Proof/Machine/HostControl.lean ====
section
/-! DEFINITION. Host control (spec/45_host_control.md): NOP, CLRERR and the register read port, whose map is
spec/10_state.md R36 to R44. -/

namespace Sys2Proof.Machine

/-- NOP (R215): nothing. -/
def execNop (s : State) : Host.Outcome State Fault Refusal := .next s

/-- CLRERR (R216): the five sticky error flags only. -/
def execClrerr (s : State) : Host.Outcome State Fault Refusal := .next (s.withFlags s.flags.clear)

/-- Four bytes as a register word, the first in bits [7:0] (R40, R44, R54). -/
def packBytes (b0 b1 b2 b3 : Byte) : Word := b3 ++ b2 ++ b1 ++ b0

/-- VIS_VALID (R37). -/
def visValidWord (s : State) : Word := s.visValid.setWidth 32

/-- RXCNT (R38). -/
def rxCntWord (s : State) : Word := s.counters.csumErr ++ s.counters.rxOk

/-- ERRCNT (R39). -/
def errCntWord (s : State) : Word := s.counters.tx ++ s.counters.lenErr

/-- HDR0 (R40). -/
def hdr0Word (s : State) : Word := packBytes s.hdr.marker s.hdr.systemType s.hdr.src s.hdr.dst

/-- HDR1 (R41). -/
def hdr1Word (s : State) : Word := packBytes s.hdr.dir s.hdr.length 0x00#8 0x00#8

/-- CONFIG (R42). -/
def configWord (p : Params) : Word :=
  packBytes (BitVec.ofNat 8 p.queueDepth) (BitVec.ofNat 8 p.presenceInterval) (BitVec.ofNat 8 Wire.lenMax) 0x00#8

/-- VIS_HANDLE[k] (R43). -/
def visHandleWord (s : State) (k : Fin 16) : Word :=
  (BitVec.ofBool (s.registered k) ++ s.handleOf k).setWidth 32

/-- BODY[k] (R44). -/
def bodyWord (s : State) (k : Nat) : Word :=
  let b := s.body.toList
  packBytes (byteAt b (4 * k)) (byteAt b (4 * k + 1)) (byteAt b (4 * k + 2)) (byteAt b (4 * k + 3))

/-- `RegRead(a)` (R220): the register at word address `a`, 0 where the map names none. -/
def State.regRead (s : State) (a : Byte) : Word :=
  let n := a.toNat
  if n = 0x00 then statusWord s
  else if n = 0x01 then visValidWord s
  else if n = 0x02 then rxCntWord s
  else if n = 0x03 then errCntWord s
  else if n = 0x04 then hdr0Word s
  else if n = 0x05 then hdr1Word s
  else if n = 0x06 then configWord s.cfg.params
  else if n < 0x10 then 0#32
  else if n < 0x20 then visHandleWord s (Fin.ofNat 16 (n - 0x10))
  else if n < 0x40 then bodyWord s (n - 0x20)
  else 0#32

end Sys2Proof.Machine
end

