-- ==== Sys2Proof/Machine/Dispatch.lean ====
section
/-! DEFINITION. The operation table of R82: which meaning each operation has. -/

namespace Sys2Proof.Machine

def exec (i : Instr) (s : State) : Host.Outcome State Fault Refusal :=
  match i with
  | .nop => Sys2Proof.Machine.execNop s
  | .poll => Sys2Proof.Machine.execPoll s
  | .register slot handle => Sys2Proof.Machine.execRegister slot handle s
  | .commLoss => Sys2Proof.Machine.execCommLoss s
  | .clrerr => Sys2Proof.Machine.execClrerr s
  | .turnOn => Sys2Proof.Machine.execTurnOn s
  | .turnOff => Sys2Proof.Machine.execTurnOff s
  | .hotButton => Sys2Proof.Machine.execHotButton s
  | .setTemp centi => Sys2Proof.Machine.execSetTemp centi s
  | .recircOn => Sys2Proof.Machine.execRecircOn s
  | .recircOff => Sys2Proof.Machine.execRecircOff s

end Sys2Proof.Machine
end

