-- ==== Sys2Proof/Machine/HostPort.lean ====
section
/-! DEFINITION. What happens at the ports (R245): a word at the operation port, bytes from the bus, a register read, reset. -/

namespace Sys2Proof.Machine

/-- The operation port takes one word and completes it (R218): a reserved opcode records BAD_OP and does nothing else
(R83, R217). -/
def issue (w : Word) (s : State) : Host.Outcome State Fault Refusal :=
  match decode w with
  | .ok i => exec i s
  | .error _ => .next s.badOp

/-- One action of the host or the bus, whole and uninterrupted (R58, R62). -/
def perform (input : Input) (s : State) : Host.Outcome State Fault Refusal :=
  match input with
  | .operation w => issue w s
  | .arrival bytes => .next (s.arrive bytes)
  | .registerRead a => .next (s.answer a (s.regRead a))
  | .hostReset => .next s.hostReset

end Sys2Proof.Machine
end

