-- ==== Sys2Proof/Machine/Step.lean ====
section
/-! DEFINITION. One step: the next action of the schedule, or, where the agents do nothing, nothing (R9, R58, R244). -/

namespace Sys2Proof.Machine

/-- One step of the machine.  With nothing scheduled the block waits, its state unchanged (R60, R244). -/
def step (s : State) : Host.Outcome State Fault Refusal :=
  match s.schedule with
  | [] => .next s
  | input :: rest => perform input (s.withSchedule rest)

/-- `s` with the instruction whose bits are `w` as the word the host writes next to the operation port. -/
def State.withFetchWord (s : State) (nbits w : Nat) : State :=
  s.withSchedule (.operation (tableWord nbits w) :: s.schedule)

end Sys2Proof.Machine
end

