-- ==== Sys2Proof/Machine/Assembler.lean ====
section
/-! DEFINITION. The assembler of R86 and R87: a line of text, the line it stands for, the operations it expands to, and
their words. -/

namespace Sys2Proof.Machine

/-- Whether a character separates words of a line. -/
def isBlank (c : Char) : Bool := c == ' ' || c == '\t'

/-- A line without the blanks around it. -/
def trimBlanks (cs : List Char) : List Char :=
  ((cs.dropWhile isBlank).reverse.dropWhile isBlank).reverse

/-- The operands of a line, separated by commas. -/
def splitCommas (cs : List Char) : List (List Char) :=
  match cs with
  | [] => [[]]
  | c :: rest =>
    match splitCommas rest with
    | [] => [[c]]
    | w :: ws => if c == ',' then [] :: w :: ws else (c :: w) :: ws

/-- The value of a decimal digit. -/
def decimalDigit (c : Char) : Option Nat :=
  if 48 ≤ c.toNat ∧ c.toNat ≤ 57 then some (c.toNat - 48) else none

/-- The value of a hexadecimal digit, of either case. -/
def hexDigit (c : Char) : Option Nat :=
  if 48 ≤ c.toNat ∧ c.toNat ≤ 57 then some (c.toNat - 48)
  else if 65 ≤ c.toNat ∧ c.toNat ≤ 70 then some (c.toNat - 55)
  else if 97 ≤ c.toNat ∧ c.toNat ≤ 102 then some (c.toNat - 87)
  else none

/-- The digits of a numeral, or none where a character is no digit or there is none. -/
def digitsOf (value : Char → Option Nat) (cs : List Char) : Option (List Nat) :=
  if cs.isEmpty then none else cs.mapM value

/-- The number a digit list stands for, most significant first. -/
def numberOf (base : Nat) (ds : List Nat) : Nat := ds.foldl (fun n d => n * base + d) 0

/-- A number in decimal or `0x` hexadecimal (R86). -/
def parseNumber (cs : List Char) : Option Nat :=
  match cs with
  | '0' :: 'x' :: ds => (digitsOf hexDigit ds).map (numberOf 16)
  | ds => (digitsOf decimalDigit ds).map (numberOf 10)

/-- A decimal value with a fraction: its whole part and its fraction digits (R87 (a)). -/
def parseDecimal (cs : List Char) : Option (Nat × List Nat) :=
  let whole := (digitsOf decimalDigit (cs.takeWhile (· != '.'))).map (numberOf 10)
  match cs.dropWhile (· != '.') with
  | [] => whole.map fun n => (n, [])
  | _ :: frac => whole.bind fun n => (digitsOf decimalDigit frac).map fun ds => (n, ds)

/-- The line a mnemonic and its operands stand for (R86, R87). -/
def lineOf (mnemonic : List Char) (operands : List (List Char)) : Option AsmLine :=
  match operands with
  | [] =>
    if mnemonic = "NOP".toList then some .nop
    else if mnemonic = "POLL".toList then some .poll
    else if mnemonic = "COMM_LOSS".toList then some .commLoss
    else if mnemonic = "CLRERR".toList then some .clrerr
    else if mnemonic = "TURN_ON".toList then some .turnOn
    else if mnemonic = "TURN_OFF".toList then some .turnOff
    else if mnemonic = "HOT_BUTTON".toList then some .hotButton
    else if mnemonic = "RECIRC_ON".toList then some .recircOn
    else if mnemonic = "RECIRC_OFF".toList then some .recircOff
    else none
  | [a] =>
    if mnemonic = "SET_TEMP".toList then (parseNumber a).map .setTemp
    else if mnemonic = "SET_TEMP_C".toList then (parseDecimal a).map fun (n, ds) => .setTempC n ds
    else if mnemonic = "POLLN".toList then (parseNumber a).map .polln
    else none
  | [a, b] =>
    if mnemonic = "REGISTER".toList then
      (parseNumber a).bind fun slot => (parseNumber b).map fun handle => .register slot handle
    else none
  | _ => none

/-- The line a text stands for: the mnemonic, then its operands separated by commas (R86). -/
def parseLine (text : List Char) : Option AsmLine :=
  let t := trimBlanks text
  let rest := trimBlanks (t.dropWhile (!isBlank ·))
  lineOf (t.takeWhile (!isBlank ·)) (if rest.isEmpty then [] else (splitCommas rest).map trimBlanks)

/-- The operations of a well-formed line; a pseudo-operation expands to those of R87. -/
def expandLine (l : AsmLine) : List Instr :=
  match l with
  | .nop => [.nop]
  | .poll => [.poll]
  | .register slot handle => [.register (Fin.ofNat 16 slot) (BitVec.ofNat 8 handle)]
  | .commLoss => [.commLoss]
  | .clrerr => [.clrerr]
  | .turnOn => [.turnOn]
  | .turnOff => [.turnOff]
  | .hotButton => [.hotButton]
  | .setTemp centi => [.setTemp (BitVec.ofNat 16 centi)]
  | .recircOn => [.recircOn]
  | .recircOff => [.recircOff]
  | .setTempC whole frac => [.setTemp (BitVec.ofNat 16 (centiOfDecimal whole frac))]
  | .polln n => List.replicate n .poll

/-- The words of a line: none where it is not well formed (R86, R87). -/
def assembleLine (l : AsmLine) : Option (List Word) :=
  if l.wellFormed then some ((expandLine l).map encode) else none

/-- The words of a line of text. -/
def assembleText (text : List Char) : Option (List Word) := (parseLine text).bind assembleLine

end Sys2Proof.Machine
end

