-- ==== Sys2Proof/Machine/Scaling.lean ====
section
/-! DEFINITION. What the raw integers of a record mean to the consumer: the exact rational values of R154 to R157 and R160.
The block emits the raw integers; no rule lets it scale them. -/

namespace Sys2Proof.Machine

/-- Half units: a temperature in degrees Celsius (R154), `operating_capacity` in percent (R160).  `heat_capacity` has no
stated scale (R160), and none is given here. -/
def FieldValue.halfUnits (v : FieldValue) : ℚ := (v.raw : ℚ) / 2

/-- Tenths: `flow` in litres per minute (R155), gas usage in cubic metres (R156). -/
def FieldValue.tenthUnits (v : FieldValue) : ℚ := (v.raw : ℚ) / 10

/-- A digit of a version string. -/
def digitChar (n : Nat) : Char := Char.ofNat (48 + n)

/-- The source's version string: exactly the two digits with a dot between for a raw byte up to 99, any value above
(R157). -/
def VersionValue.text (v : VersionValue) : List Char :=
  if v.raw.raw ≤ 99 then [digitChar v.verMajor, '.', digitChar v.verMinor]
  else Config.versionTextBeyond v.raw.raw

end Sys2Proof.Machine
end

