-- ==== Sys2Proof/Safety.lean ====
section
/-! DEFINITION. What counts as a good configuration, a good state and a good run, in the terms the statements use: the
constraints of R265 as the rules state them, the contents of a record, the legal states, which every run from reset stays in,
and runs of steps. -/

namespace Sys2Proof.Machine

/-! ### Configurations, as the rules state their constraints -/

/-- The 1 bits of the mask are the `n` bits from bit `lo` up, and there is at least one (R147 (a)). -/
def MaskBits (mask : Byte) (lo n : Nat) : Prop :=
  1 ≤ n ∧ lo + n ≤ 8 ∧ ∀ i, i < 8 → (mask.getLsbD i = true ↔ lo ≤ i ∧ i < lo + n)

/-- "BYTE, 1-bit mask" of the tables of R150 and R152, or ABSENT. -/
def FlagDesc (d : FieldDesc) : Prop :=
  d = .absent ∨ ∃ off i, off ≤ 120 ∧ i < 8 ∧ d = .byte off (BitVec.twoPow 8 i)

/-- "BYTE, mask 0xFF", or ABSENT. -/
def FullByteDesc (d : FieldDesc) : Prop := d = .absent ∨ ∃ off, off ≤ 120 ∧ d = .byte off 0xFF#8

/-- "BYTE, any mask", or ABSENT. -/
def CodeDesc (d : FieldDesc) : Prop :=
  d = .absent ∨ ∃ off mask lo n, off ≤ 120 ∧ MaskBits mask lo n ∧ d = .byte off mask

/-- "WORD", or ABSENT. -/
def WordDesc (d : FieldDesc) : Prop :=
  d = .absent ∨ ∃ hi lo, hi ≤ 120 ∧ lo ≤ 120 ∧ hi ≠ lo ∧ d = .word hi lo

/-- "WORD or BYTE 0xFF", or ABSENT. -/
def CounterDesc (d : FieldDesc) : Prop := WordDesc d ∨ FullByteDesc d

/-- A legal WATER_MAP: every field has a descriptor its row of R150 admits. -/
structure LegalWaterMap (m : WaterMap) : Prop where
  power : FlagDesc m.power
  recircInternalSched : FlagDesc m.recircInternalSched
  recircExternalSched : FlagDesc m.recircExternalSched
  dhwSetTemp : FullByteDesc m.dhwSetTemp
  dhwOutletTemp : FullByteDesc m.dhwOutletTemp
  dhwInletTemp : FullByteDesc m.dhwInletTemp
  flow : FullByteDesc m.flow
  operatingCapacity : FullByteDesc m.operatingCapacity
  heatingMode : CodeDesc m.heatingMode
  operatingState : CodeDesc m.operatingState
  boilerActive : FlagDesc m.boilerActive
  recircHotButtonActive : FlagDesc m.recircHotButtonActive
  recircScheduleAllowed : FlagDesc m.recircScheduleAllowed

/-- A legal GAS_MAP: every field has a descriptor its row of R152 admits. -/
structure LegalGasMap (m : GasMap) : Prop where
  deviceType : CodeDesc m.deviceType
  controllerFwVersion : FullByteDesc m.controllerFwVersion
  panelFwVersion : FullByteDesc m.panelFwVersion
  dhwSetTemp : FullByteDesc m.dhwSetTemp
  dhwOutletTemp : FullByteDesc m.dhwOutletTemp
  dhwInletTemp : FullByteDesc m.dhwInletTemp
  shSetTemp : FullByteDesc m.shSetTemp
  shOutletTemp : FullByteDesc m.shOutletTemp
  shReturnTemp : FullByteDesc m.shReturnTemp
  gasCumulative : WordDesc m.gasCumulative
  gasInstant : WordDesc m.gasInstant
  heatCapacity : FullByteDesc m.heatCapacity
  dhwUsageCount : CounterDesc m.dhwUsageCount
  operatingTime : CounterDesc m.operatingTime
  dhwUsageHours : CounterDesc m.dhwUsageHours
  shUsageHours : CounterDesc m.shUsageHours
  daysSinceInstall : CounterDesc m.daysSinceInstall
  displayUnits : FlagDesc m.displayUnits
  hotButtonEnabled : FlagDesc m.hotButtonEnabled

/-- The constraints of R56 (a) to (e) on one ROM. -/
structure LegalRom (p : Params) (r : RomName) : Prop where
  size : 7 ≤ (romOf p r).length ∧ (romOf p r).length ≤ 64
  marker : byteAt (romOf p r) 0 = 0xF7#8
  body_length : (byteAt (romOf p r) 5).toNat + 7 = (romOf p r).length
  address : byteAt (romOf p r) 2 = p.ctrlSrc ∧ byteAt (romOf p r) 4 = p.dirControl
  checksum_burned_in : r ≠ .setTemp →
    byteAt (romOf p r) ((romOf p r).length - 1) = checksum (romOf p r) ((romOf p r).length - 1) 0x62#8

/-- The constraints of R265 on the OPEN parameters: R56, R77, R147 with R150 and R152, and the ranges of R7. -/
structure LegalParams (p : Params) : Prop where
  roms : ∀ r, LegalRom p r
  temp_offset : 6 ≤ p.tempOffset ∧ p.tempOffset + 2 ≤ p.romSetTemp.length
  directions : p.dirStatus ≠ p.dirControl
  destinations : p.dstWater ≠ p.dstGas
  ctrl_src : ∀ k, k ≤ 15 → p.ctrlSrc ≠ p.statusSrcBase + BitVec.ofNat 8 k
  water_map : LegalWaterMap p.waterMap
  gas_map : LegalGasMap p.gasMap
  presence_interval : 1 ≤ p.presenceInterval ∧ p.presenceInterval ≤ 255
  queue_depth : 2 ≤ p.queueDepth ∧ p.queueDepth ≤ 31

/-! ### Records, as the rules state their contents -/

/-- The raw byte of a firmware version with its two digits (R157). -/
def IsVersion (body : List Byte) (d : FieldDesc) (o : Option VersionValue) : Prop :=
  o = (fieldValue body d).map fun v => ⟨v, v.raw / 10, v.raw % 10⟩

/-- `r` is the WaterFields record of the body: each field the value of its own descriptor, and `raw` the body
(R150, R158). -/
structure IsWaterRecord (m : WaterMap) (body : List Byte) (r : WaterFields) : Prop where
  power : r.power = fieldValue body m.power
  recircInternalSched : r.recircInternalSched = fieldValue body m.recircInternalSched
  recircExternalSched : r.recircExternalSched = fieldValue body m.recircExternalSched
  dhwSetTemp : r.dhwSetTemp = fieldValue body m.dhwSetTemp
  dhwOutletTemp : r.dhwOutletTemp = fieldValue body m.dhwOutletTemp
  dhwInletTemp : r.dhwInletTemp = fieldValue body m.dhwInletTemp
  flow : r.flow = fieldValue body m.flow
  operatingCapacity : r.operatingCapacity = fieldValue body m.operatingCapacity
  heatingMode : r.heatingMode = fieldValue body m.heatingMode
  operatingState : r.operatingState = fieldValue body m.operatingState
  boilerActive : r.boilerActive = fieldValue body m.boilerActive
  recircHotButtonActive : r.recircHotButtonActive = fieldValue body m.recircHotButtonActive
  recircScheduleAllowed : r.recircScheduleAllowed = fieldValue body m.recircScheduleAllowed
  raw : r.raw = body

/-- `r` is the GasFields record of the body: each field the value of its own descriptor, the two versions with their digits,
and `raw` the body (R152, R157, R158). -/
structure IsGasRecord (m : GasMap) (body : List Byte) (r : GasFields) : Prop where
  deviceType : r.deviceType = fieldValue body m.deviceType
  controllerFwVersion : IsVersion body m.controllerFwVersion r.controllerFwVersion
  panelFwVersion : IsVersion body m.panelFwVersion r.panelFwVersion
  dhwSetTemp : r.dhwSetTemp = fieldValue body m.dhwSetTemp
  dhwOutletTemp : r.dhwOutletTemp = fieldValue body m.dhwOutletTemp
  dhwInletTemp : r.dhwInletTemp = fieldValue body m.dhwInletTemp
  shSetTemp : r.shSetTemp = fieldValue body m.shSetTemp
  shOutletTemp : r.shOutletTemp = fieldValue body m.shOutletTemp
  shReturnTemp : r.shReturnTemp = fieldValue body m.shReturnTemp
  gasCumulative : r.gasCumulative = fieldValue body m.gasCumulative
  gasInstant : r.gasInstant = fieldValue body m.gasInstant
  heatCapacity : r.heatCapacity = fieldValue body m.heatCapacity
  dhwUsageCount : r.dhwUsageCount = fieldValue body m.dhwUsageCount
  operatingTime : r.operatingTime = fieldValue body m.operatingTime
  dhwUsageHours : r.dhwUsageHours = fieldValue body m.dhwUsageHours
  shUsageHours : r.shUsageHours = fieldValue body m.shUsageHours
  daysSinceInstall : r.daysSinceInstall = fieldValue body m.daysSinceInstall
  displayUnits : r.displayUnits = fieldValue body m.displayUnits
  hotButtonEnabled : r.hotButtonEnabled = fieldValue body m.hotButtonEnabled
  raw : r.raw = body

/-! ### States and runs -/

/-- The frames the command queue can hold: a ROM entry or a SET_TEMP rendering (R88). -/
def IsCommandFrame (p : Params) (f : Frame) : Prop :=
  f ∈ [p.romTurnOn, p.romTurnOff, p.romHotPress, p.romHotRelease, p.romRecircOn, p.romRecircOff]
    ∨ ∃ t : Byte, f = renderSetTemp p t

/-- The frames the block can transmit: a queued command or ROM_PRESENCE (R88). -/
def IsOutboundFrame (p : Params) (f : Frame) : Prop := IsCommandFrame p f ∨ f = p.romPresence

/-- A legal state: what the rules say of every state a run from reset reaches. -/
structure State.Legal (s : State) : Prop where
  /-- Q_COUNT is 0..QUEUE_DEPTH (R28, R45). -/
  queue_fits : s.queue.length ≤ s.cfg.params.queueDepth
  /-- A queue entry is a command frame (R28, R88). -/
  queue_frames : ∀ f ∈ s.queue, IsCommandFrame s.cfg.params f
  /-- HB_CNT is 0..PRESENCE_INTERVAL (R27, R45). -/
  heartbeat_bounded : s.hbCnt.toNat ≤ s.cfg.params.presenceInterval
  /-- In MARKER_FOUND the marker is still unread at the head of the byte source (R112, R114). -/
  marker_unread : s.rxState = .markerFound → s.source.head? = some Wire.marker
  /-- In HEADER_PARSED the header held begins with the marker and is not over-length (R113, R117). -/
  header_held : s.rxState = .headerParsed → s.hdr.marker = Wire.marker ∧ s.bodyLen ≤ Wire.lenMax
  /-- Every frame transmitted is one the block may transmit (R88). -/
  sent_frames : ∀ f, Item.tx f ∈ s.history → IsOutboundFrame s.cfg.params f

/-- The step is not the reset input. -/
def State.noReset (s : State) : Prop := s.schedule.head? ≠ some .hostReset

/-- A header found where the framer looks for one, then the unread bytes `rest`: in INITIAL after bytes that are no marker,
in MARKER_FOUND at once (R112 to R116). -/
def State.FindsHeader (s : State) (h : Header) (rest : List Byte) : Prop :=
  h.marker = Wire.marker
    ∧ ((s.rxState = .initial ∧ ∃ g, (∀ b ∈ g, b ≠ Wire.marker) ∧ s.source = g ++ (headerBytes h ++ rest))
      ∨ (s.rxState = .markerFound ∧ s.source = headerBytes h ++ rest))

/-- A complete frame is at hand for the next POLL: header `h`, body `body`, checksum byte `cs`, then the unread bytes
`rest`.  The header may still be unread, or held from an earlier POLL (R118). -/
def State.Receives (s : State) (h : Header) (body : List Byte) (cs : Byte) (rest : List Byte) : Prop :=
  body.length = h.length.toNat ∧ body.length ≤ Wire.lenMax
    ∧ (s.FindsHeader h (body ++ cs :: rest)
      ∨ (s.rxState = .headerParsed ∧ s.hdr = h ∧ s.source = body ++ cs :: rest))

/-- The framer's own part of a frame completion: the header and the body are held, the bytes are consumed, the framer is in
INITIAL (R116, R119, R122). -/
def State.afterFrame (s : State) (h : Header) (body : List Byte) (cs : Byte) (rest : List Byte) : State :=
  { s with rxState := .initial, hdr := h, body := writeBody s.body (body ++ [cs]), source := rest }

/-- The checksum byte `cs` is the one the frame's header and body call for, under the seed of its source (R76, R143). -/
def ChecksumMatches (p : Params) (h : Header) (body : List Byte) (cs : Byte) : Prop :=
  checksum (headerBytes h ++ body) (6 + body.length) (seedFor p h.src) = cs

/-- The frame at hand will be accepted: validated, and matching (R141). -/
def State.Accepts (s : State) (h : Header) (body : List Byte) (cs : Byte) (rest : List Byte) : Prop :=
  s.Receives h body cs rest ∧ frameClass s.cfg.params h ≠ .foreignControl ∧ ChecksumMatches s.cfg.params h body cs

/-- The header has the presence shape: its bytes 1 to 5 are those of ROM_PRESENCE (R179). -/
def PresenceShape (p : Params) (h : Header) : Prop :=
  ∀ i, 1 ≤ i → i < 6 → byteAt (headerBytes h) i = byteAt p.romPresence i

/-- A foreign presence frame: an accepted control frame of the presence shape (R179, R180). -/
def IsForeignPresence (p : Params) (h : Header) : Prop := frameClass p h = .control ∧ PresenceShape p h

/-- The next POLL ends for want of bytes, completing no frame attempt (R115). -/
def State.PollSuspends (s : State) : Prop :=
  s.poll.rxState ≠ .initial ∨ (s.rxState = .initial ∧ ∀ b ∈ s.source, b ≠ Wire.marker)

/-- `n` steps; the block has no fault and no refusal, and a step that had one would leave the run where it is. -/
def runSteps (n : Nat) (s : State) : State :=
  match n with
  | 0 => s
  | k + 1 =>
    match step s with
    | .next t => runSteps k t
    | .fault _ => s
    | .refused _ => s

/-- The frames among the items of an output history, in order. -/
def txFrames (items : List Item) : List Frame :=
  items.filterMap fun i =>
    match i with
    | .tx f => some f
    | .ev _ => none

/-- The visitor events among the items of an output history, in order. -/
def evEvents (items : List Item) : List Event :=
  items.filterMap fun i =>
    match i with
    | .tx _ => none
    | .ev e => some e

end Sys2Proof.Machine
end

