-- ==== Sys2Proof/Certificates/Slice0/Obligations.lean ====
section
/-! DEFINITION. The statements for the provers, in the order of the spec's files.  Each docstring names the rule it
formalises. -/

open Sys2Proof Sys2Proof.Machine

/-! ### The operation word (spec/30_encoding.md) -/

/-- Decoding the word of an operation gives the operation back, with every operand at every value (R82, R86). -/
def Obligations.DecodeEncodeRoundTrip : Prop :=
  ∀ i : Instr, i.wellFormed = true → decode (encode i) = .ok i

/-- A word decodes to `i` exactly when its OPC is that of `i` and its fields are the operands of `i` (R81, R82). -/
def Obligations.DecodeFollowsOpcodeMap : Prop :=
  ∀ (w : Word) (i : Instr), decode w = .ok i ↔
    opcField w = opcodeOf i
      ∧ (∀ slot handle, i = .register slot handle → slotField w = slot ∧ handleField w = handle)
      ∧ (∀ centi, i = .setTemp centi → argField w = centi)

/-- Two words that differ only in fields the operation does not use are one operation, with one effect (R84). -/
def Obligations.UnusedFieldsAreIgnored : Prop :=
  ∀ w v : Word, opcField w = opcField v →
    (opcField w = 0x02#8 → slotField w = slotField v ∧ handleField w = handleField v) →
    (opcField w = 0x13#8 → argField w = argField v) →
    decode w = decode v ∧ ∀ s, issue w s = issue v s

/-- A reserved opcode records BAD_OP, has no other effect and does not stop the block; 245 values are reserved
(R83, R217). -/
def Obligations.ReservedOpcodeRecordsBadOp : Prop :=
  (∀ (w : Word) (s : State),
    opcField w ∉ [0x00#8, 0x01#8, 0x02#8, 0x03#8, 0x04#8, 0x10#8, 0x11#8, 0x12#8, 0x13#8, 0x14#8, 0x15#8] →
    decode w = .error (.reservedOpcode (opcField w))
      ∧ issue w s = .next { s with flags := { s.flags with badOp := true }, lastCause := .errBadOp })
  ∧ ((List.range 256).filter fun n => decodeTableWord 8 n == none).length = 245

/-- Words written out from the encodings of R80 and R82 decode to the operations they stand for. -/
def Obligations.DecodeSampleWords : Prop :=
  decode 0x00220102#32 = .ok (.register 1 0x22#8) ∧ decode 0x0FB90013#32 = .ok (.setTemp 4025#16)
    ∧ decode 0x12340001#32 = .ok .poll ∧ decode 0xFF22F102#32 = .ok (.register 1 0x22#8)
    ∧ decode 0x00000012#32 = .ok .hotButton ∧ decode 0x000000FF#32 = .error (.reservedOpcode 0xFF#8)

/-- The pseudo-operations expand as R87 says: POLLN to its POLL lines, SET_TEMP_C with no, one or two fraction digits to the
SET_TEMP line of its value in hundredths, whose word is that of R86.  That a line outside the ranges R86 and R87 print (a slot,
a handle, an operand, a temperature above 655.35, a third fraction digit, POLLN 0) is not assembled is the model's choice
(notes/assumptions/12.md). -/
def Obligations.PseudoOperationsExpand : Prop :=
  (∀ n, 1 ≤ n → assembleLine (.polln n) = some (List.replicate n 0x00000001#32))
  ∧ (∀ centi, centi ≤ 65535 → assembleLine (.setTemp centi) = some [encode (.setTemp (BitVec.ofNat 16 centi))])
  ∧ (∀ whole, whole * 100 ≤ 65535 → assembleLine (.setTempC whole []) = assembleLine (.setTemp (whole * 100)))
  ∧ (∀ whole d, d ≤ 9 → whole * 100 + d * 10 ≤ 65535 →
      assembleLine (.setTempC whole [d]) = assembleLine (.setTemp (whole * 100 + d * 10)))
  ∧ (∀ whole d e, d ≤ 9 → e ≤ 9 → whole * 100 + d * 10 + e ≤ 65535 →
      assembleLine (.setTempC whole [d, e]) = assembleLine (.setTemp (whole * 100 + d * 10 + e)))
  ∧ (∀ slot handle, 15 < slot ∨ 255 < handle → assembleLine (.register slot handle) = none)
  ∧ (∀ centi, 65535 < centi → assembleLine (.setTemp centi) = none)
  ∧ (∀ whole, 65535 < whole * 100 → assembleLine (.setTempC whole []) = none)
  ∧ (∀ whole d, 65535 < whole * 100 + d * 10 → assembleLine (.setTempC whole [d]) = none)
  ∧ (∀ whole d e, 65535 < whole * 100 + d * 10 + e → assembleLine (.setTempC whole [d, e]) = none)
  ∧ (∀ whole frac, 2 < frac.length → assembleLine (.setTempC whole frac) = none)
  ∧ assembleLine (.polln 0) = none

/-! ### The configuration (spec/20_memory.md R56, spec/30_encoding.md R77) -/

/-- Every configuration a run can have satisfies R56 for each of its ROMs. -/
def Obligations.ConfigurationRomsAreLegal : Prop :=
  ∀ (c : Config) (r : RomName),
    let f := romOf c.params r
    7 ≤ f.length ∧ f.length ≤ 64 ∧ byteAt f 0 = 0xF7#8 ∧ (byteAt f 5).toNat + 7 = f.length
      ∧ byteAt f 2 = c.params.ctrlSrc ∧ byteAt f 4 = c.params.dirControl
      ∧ (r ≠ .setTemp → byteAt f (f.length - 1) = checksum f (f.length - 1) 0x62#8)
      ∧ (r = .setTemp → 6 ≤ c.params.tempOffset ∧ c.params.tempOffset ≤ f.length - 2)

/-- Every configuration a run can have satisfies R77, so that the control source takes SEED_OTHER, has field maps that satisfy
R147 with the kinds of R150 and R152, and keeps the ranges of R7. -/
def Obligations.ConfigurationParametersAreLegal : Prop :=
  ∀ c : Config,
    c.params.dirStatus ≠ c.params.dirControl ∧ c.params.dstWater ≠ c.params.dstGas
      ∧ (∀ k, k ≤ 15 → c.params.ctrlSrc ≠ c.params.statusSrcBase + BitVec.ofNat 8 k)
      ∧ seedFor c.params c.params.ctrlSrc = 0x62#8
      ∧ LegalWaterMap c.params.waterMap ∧ LegalGasMap c.params.gasMap
      ∧ 1 ≤ c.params.presenceInterval ∧ c.params.presenceInterval ≤ 255
      ∧ 2 ≤ c.params.queueDepth ∧ c.params.queueDepth ≤ 31

/-- Parameters are refused exactly when they break a constraint of R265: one of R56, R77, R147 with R150 and R152, or a range
of R7, as `LegalParams` states them.  The list of names a refusal carries is the model's (notes/assumptions/1.md). -/
def Obligations.IllegalConfigurationIsRefused : Prop :=
  ∀ p : Params,
    (LegalParams p → ∃ c, Config.ofParams p = .ok c ∧ c.params = p)
      ∧ (¬ LegalParams p → violations p ≠ [] ∧ Config.ofParams p = .error (violations p))

/-- Every frame the block may transmit is a control frame from CTRL_SRC of at most 64 bytes with a good checksum
(R28, R56, R88). -/
def Obligations.OutboundFramesAreWellFormed : Prop :=
  ∀ (c : Config) (f : Frame), IsOutboundFrame c.params f → commandWellFormed c.params f = true

/-! ### The checksum engine (spec/40_checksum.md) -/

/-- Between iterations the accumulator holds 8 bits, the result depends only on the bytes counted, and with fewer than two
it is 0x00 (R101, R102). -/
def Obligations.ChecksumAccumulatorIsAByte : Prop :=
  (∀ (bs : List Byte) (seed : Byte), (checksumAcc bs seed).toNat ≤ 0x00FF)
  ∧ (∀ (bs cs : List Byte) (n : Nat) (seed : Byte), bs.take n = cs.take n → checksum bs n seed = checksum cs n seed)
  ∧ (∀ (bs : List Byte) (n : Nat) (seed : Byte), n < 2 → checksum bs n seed = 0x00#8)

/-- The last input byte enters by a plain XOR, so changing it by XOR changes the result by the same XOR (R105). -/
def Obligations.ChecksumLastByteIsXor : Prop :=
  ∀ (bs : List Byte) (b d seed : Byte), 1 ≤ bs.length →
    checksum (bs ++ [b]) (bs.length + 1) seed = (checksumShift seed (checksumAcc bs seed)).setWidth 8 ^^^ b
      ∧ checksum (bs ++ [b ^^^ d]) (bs.length + 1) seed = checksum (bs ++ [b]) (bs.length + 1) seed ^^^ d

/-! ### The framer (spec/41_framer.md) -/

/-- POLL in INITIAL with no marker available discards every byte and does nothing else (R112). -/
def Obligations.PollWithoutMarkerDiscards : Prop :=
  ∀ s : State, s.rxState = .initial → (∀ b ∈ s.source, b ≠ Wire.marker) →
    exec .poll s = .next { s with source := [] }

/-- A state that lacks the bytes it needs suspends the POLL: nothing is consumed in it and no outcome is written
(R115). -/
def Obligations.UnderrunSuspendsPoll : Prop :=
  ∀ s : State,
    (s.rxState = .initial → s.source = [] → exec .poll s = .next s)
    ∧ (s.rxState = .markerFound → s.source.length < 6 → exec .poll s = .next s)
    ∧ (s.rxState = .headerParsed → s.source.length < s.hdr.length.toNat + 1 → exec .poll s = .next s)
    ∧ (∀ g rest, s.rxState = .initial → (∀ b ∈ g, b ≠ Wire.marker) → s.source = g ++ Wire.marker :: rest →
        rest.length < 5 → exec .poll s = .next { s with rxState := .markerFound, source := Wire.marker :: rest })
    ∧ (∀ h rest, s.FindsHeader h rest → h.length.toNat ≤ 121 → rest.length < h.length.toNat + 1 →
        exec .poll s = .next { s with rxState := .headerParsed, hdr := h, source := rest })

/-- A header whose `length` exceeds 121 is rejected at once: ERR_LEN, its six bytes consumed and held, nothing else
(R117). -/
def Obligations.OverLongHeaderIsRejected : Prop :=
  ∀ (s : State) (h : Header) (rest : List Byte), s.FindsHeader h rest → 121 < h.length.toNat →
    exec .poll s = .next
      { s with
        rxState := .initial, hdr := h, source := rest, lastCause := .errLen
        flags := { s.flags with lenErr := true }
        counters := { s.counters with lenErr := s.counters.lenErr + 1#16 } }

/-- Bytes other than the marker received before anything else make no difference to a POLL in INITIAL (R124). -/
def Obligations.GarbageBeforeAFrameIsDiscarded : Prop :=
  ∀ (s : State) (g : List Byte), s.rxState = .initial → (∀ b ∈ g, b ≠ Wire.marker) →
    ∃ t, exec .poll s = .next t ∧ exec .poll { s with source := g ++ s.source } = .next t

/-- One POLL ends at most one frame attempt, emits at most one visitor event and then at most one frame, and an event goes
to the slot of the frame's source only (R63, R111, R210). -/
def Obligations.OnePollOneAttempt : Prop :=
  ∀ s : State, ∃ t, exec .poll s = .next t ∧
    ∃ (evs : List Event) (txs : List Frame) (ok csum len : Nat),
      t.history = s.history ++ evs.map .ev ++ txs.map .tx ∧ evs.length ≤ 1 ∧ txs.length ≤ 1
      ∧ ok + csum + len ≤ 1
      ∧ t.counters = ⟨s.counters.rxOk + BitVec.ofNat 16 ok, s.counters.csumErr + BitVec.ofNat 16 csum,
          s.counters.lenErr + BitVec.ofNat 16 len, s.counters.tx + BitVec.ofNat 16 txs.length⟩
      ∧ ∀ e ∈ evs, ∃ k : Fin 16, k.val = slotOf s.cfg.params t.hdr.src ∧ s.registered k = true
          ∧ ((∃ r, e = .water k (s.handleOf k) t.hdr.src r) ∨ (∃ r, e = .gas k (s.handleOf k) t.hdr.src r))

/-- A POLL that suspends is invisible: with more bytes arriving after it, the next POLL does what it would have done without
it (R115, R118, R123). -/
def Obligations.SuspendedPollIsInvisible : Prop :=
  ∀ (s : State) (bytes : List Byte), s.PollSuspends →
    ∃ t, exec .poll s = .next t ∧ exec .poll (t.arrive bytes) = exec .poll (s.arrive bytes)

/-- Fragmentation independence for POLLs (R123): splitting an arrival in two, with any number of POLLs and no other operation
between the parts, makes no difference once enough POLLs have drained the byte source.  The runs are over the model's schedule
(notes/assumptions/2.md). -/
def Obligations.FragmentationIndependence : Prop :=
  ∀ (s : State) (xs ys : List Byte) (k n : Nat), s.source.length + xs.length + ys.length < n →
    runSteps (1 + k + 1 + n)
        { s with schedule := [.arrival xs] ++ List.replicate k (.operation 0x00000001#32)
            ++ [.arrival ys] ++ List.replicate n (.operation 0x00000001#32) }
      = runSteps (1 + n)
        { s with schedule := [.arrival (xs ++ ys)] ++ List.replicate n (.operation 0x00000001#32) }

/-! ### The decoder (spec/42_decoder.md) -/

/-- A checksum mismatch drops the frame: the flag, the counter and the outcome code, no event, no transmission; the framer
is in INITIAL (R142). -/
def Obligations.ChecksumMismatchDropsFrame : Prop :=
  ∀ (s : State) (h : Header) (body : List Byte) (cs : Byte) (rest : List Byte),
    s.Receives h body cs rest → frameClass s.cfg.params h ≠ .foreignControl → ¬ ChecksumMatches s.cfg.params h body cs →
    exec .poll s = .next
      { s.afterFrame h body cs rest with
        lastCause := .errCsum
        flags := { s.flags with csumErr := true }
        counters := { s.counters with csumErr := s.counters.csumErr + 1#16 } }

/-- A control frame from another source writes only the outcome code, whatever its checksum (R144). -/
def Obligations.ForeignControlFrameIsIgnored : Prop :=
  ∀ (s : State) (h : Header) (body : List Byte) (cs : Byte) (rest : List Byte),
    s.Receives h body cs rest → h.dir = s.cfg.params.dirControl → h.src ≠ s.cfg.params.ctrlSrc →
    exec .poll s = .next { s.afterFrame h body cs rest with lastCause := .rxForeignCtrl }

/-- An accepted frame is held, its bytes are consumed, and it is counted once; the flags, the other receive counters and
the visitor table are as before (R119, R122, R141). -/
def Obligations.AcceptedFrameIsCounted : Prop :=
  ∀ (s : State) (h : Header) (body : List Byte) (cs : Byte) (rest : List Byte), s.Accepts h body cs rest →
    ∃ t, exec .poll s = .next t
      ∧ t.counters.rxOk = s.counters.rxOk + 1#16 ∧ t.counters.csumErr = s.counters.csumErr
      ∧ t.counters.lenErr = s.counters.lenErr ∧ t.flags = s.flags
      ∧ t.rxState = .initial ∧ t.hdr = h ∧ t.source = rest
      ∧ (∀ i : Fin 128, t.body[i] = (body ++ [cs])[i.val]?.getD s.body[i])
      ∧ t.visValid = s.visValid ∧ t.visHandle = s.visHandle ∧ t.cfg = s.cfg
      ∧ t.schedule = s.schedule ∧ t.reads = s.reads

/-- An accepted status frame for an unknown destination, or too short for its field map, is not decoded and notifies nobody
(R146, R151). -/
def Obligations.UndecodedStatusFrameNotifiesNobody : Prop :=
  ∀ (s : State) (h : Header) (body : List Byte) (cs : Byte) (rest : List Byte), s.Accepts h body cs rest →
    h.dir = s.cfg.params.dirStatus →
    ∃ t txs, exec .poll s = .next t ∧
      ((h.dst ≠ s.cfg.params.dstWater → h.dst ≠ s.cfg.params.dstGas →
          t.lastCause = .rxUnknownDst ∧ t.history = s.history ++ List.map .tx txs)
      ∧ (h.dst = s.cfg.params.dstWater → body.length < waterMinLen s.cfg.params.waterMap →
          t.lastCause = .rxShort ∧ t.history = s.history ++ List.map .tx txs)
      ∧ (h.dst = s.cfg.params.dstGas → body.length < gasMinLen s.cfg.params.gasMap →
          t.lastCause = .rxShort ∧ t.history = s.history ++ List.map .tx txs))

/-- The value of a BYTE descriptor is `(body[off] & mask) >> ctz(mask)`, popcount(mask) bits wide: where the mask's 1 bits are
`n` bits from bit `lo` up, those `n` bits of the byte, and under mask 0xFF the byte itself.  Every value a legal descriptor
extracts fits in its width, and bits outside the mask do not affect it (R147, R148). -/
def Obligations.ExtractedValueIsItsMaskedBits : Prop :=
  (∀ (body : List Byte) off mask, descLegal (.byte off mask) = true →
    fieldValue body (.byte off mask) = some ⟨popcount mask, ((byteAt body off &&& mask) >>> ctz mask).toNat⟩)
  ∧ (∀ (body : List Byte) off mask lo n, MaskBits mask lo n →
      fieldValue body (.byte off mask) = some ⟨n, (byteAt body off).toNat / 2 ^ lo % 2 ^ n⟩)
  ∧ (∀ (body : List Byte) off, fieldValue body (.byte off 0xFF#8) = some ⟨8, (byteAt body off).toNat⟩)
  ∧ ∀ (body : List Byte) (d : FieldDesc) (v : FieldValue), descLegal d = true → fieldValue body d = some v →
    v.raw < 2 ^ v.width
      ∧ (∀ (body' : List Byte) off mask, d = .byte off mask →
          byteAt body' off &&& mask = byteAt body off &&& mask → fieldValue body' d = some v)

/-- A flag field is 1 exactly when its bit is set (R149). -/
def Obligations.FlagFieldIsItsBit : Prop :=
  ∀ (body : List Byte) (off : Nat) (mask : Byte), descLegal (.byte off mask) = true →
    kindAdmits .flag (.byte off mask) = true →
    fieldValue body (.byte off mask) = some ⟨1, if byteAt body off &&& mask = 0#8 then 0 else 1⟩

/-- A WORD descriptor's value is `hi * 256 + lo`, and swapping the bytes changes it exactly when they differ (R153, R161). -/
def Obligations.WordValueCombinesHiLo : Prop :=
  (∀ (body : List Byte) (hiOff loOff : Nat), fieldValue body (.word hiOff loOff)
      = some ⟨16, (byteAt body hiOff).toNat * 256 + (byteAt body loOff).toNat⟩)
  ∧ ∀ hi lo : Byte,
    (wordValue hi lo).toNat = hi.toNat * 256 + lo.toNat
      ∧ (wordValue lo hi ≠ wordValue hi lo ↔ hi ≠ lo)
      ∧ ((wordValue lo hi).toNat : Int) - (wordValue hi lo).toNat = 255 * ((lo.toNat : Int) - hi.toNat)

/-- The version digits are the decimal digits of the raw byte, and up to 99 the string is the two digits with a dot
(R157). -/
def Obligations.VersionDigitsAreDecimal : Prop :=
  ∀ v : FieldValue,
    (versionValue v).raw = v ∧ (versionValue v).verMajor = v.raw / 10 ∧ (versionValue v).verMinor = v.raw % 10
      ∧ (v.raw ≤ 99 → (versionValue v).text
          = [Char.ofNat (48 + v.raw / 10), '.', Char.ofNat (48 + v.raw % 10)])

/-- SEED_STATUS is the seed of exactly the 16 slot addresses; every other source takes SEED_OTHER (R143). -/
def Obligations.SeedFollowsSource : Prop :=
  ∀ (p : Params) (src : Byte),
    (seedFor p src = 0x4B#8 ↔ ∃ k, k ≤ 15 ∧ src = p.statusSrcBase + BitVec.ofNat 8 k)
      ∧ (seedFor p src ≠ 0x4B#8 → seedFor p src = 0x62#8)

/-- A frame of unknown direction is validated like any frame, and when it matches it is accepted and ignored (R145). -/
def Obligations.UnknownDirectionIsValidatedAndIgnored : Prop :=
  ∀ (s : State) (h : Header) (body : List Byte) (cs : Byte) (rest : List Byte), s.Receives h body cs rest →
    h.dir ≠ s.cfg.params.dirStatus → h.dir ≠ s.cfg.params.dirControl →
    ∃ t txs, exec .poll s = .next t ∧ t.history = s.history ++ List.map .tx txs ∧ t.otherPresent = s.otherPresent
      ∧ (ChecksumMatches s.cfg.params h body cs →
          t.lastCause = .rxUnknownDir ∧ t.counters.rxOk = s.counters.rxOk + 1#16)
      ∧ (¬ ChecksumMatches s.cfg.params h body cs →
          t.lastCause = .errCsum ∧ t.counters.csumErr = s.counters.csumErr + 1#16 ∧ t.flags.csumErr = true ∧ txs = [])

/-! ### Dispatch (spec/44_dispatch.md) -/

/-- REGISTER binds the handle to its slot and leaves every other slot and the rest of the state as they were (R200). -/
def Obligations.RegisterBindsOneSlot : Prop :=
  ∀ (s : State) (k : Fin 16) (h : Byte), ∃ valid handles,
    exec (.register k h) s = .next { s with visValid := valid, visHandle := handles }
      ∧ valid.getLsbD k.val = true ∧ handles[k.val] = h
      ∧ ∀ j : Fin 16, j ≠ k → valid.getLsbD j.val = s.visValid.getLsbD j.val ∧ handles[j.val] = s.visHandle[j.val]

/-- The last registration of a slot wins, repeating one changes nothing, and no other slot is affected (R201). -/
def Obligations.LastRegistrationWins : Prop :=
  ∀ (s : State) (k : Fin 16) (h h' : Byte), ∃ t, exec (.register k h) s = .next t
    ∧ exec (.register k h') t = exec (.register k h') s ∧ exec (.register k h) t = .next t
    ∧ ∀ j, j ≠ k → t.registered j = s.registered j ∧ t.handleOf j = s.handleOf j

/-- A decoded record goes to the visitor of its source's slot with the handle, the source and the fields, or is dropped with
the outcome R204 names (R204, R206).  Each field of the record is the value of its own descriptor, the two versions carry their
digits, and `raw` is the body (R150, R152, R157, R158). -/
def Obligations.DecodedFrameReachesItsVisitor : Prop :=
  ∀ (s : State) (h : Header) (body : List Byte) (cs : Byte) (rest : List Byte), s.Accepts h body cs rest →
    h.dir = s.cfg.params.dirStatus →
    ∃ t txs, exec .poll s = .next t ∧
      ((h.dst = s.cfg.params.dstWater ∧ waterMinLen s.cfg.params.waterMap ≤ body.length
          ∨ h.dst = s.cfg.params.dstGas ∧ gasMinLen s.cfg.params.gasMap ≤ body.length) →
        (15 < slotOf s.cfg.params h.src →
          t.lastCause = .rxSrcRange ∧ t.history = s.history ++ List.map .tx txs)
        ∧ ∀ k : Fin 16, k.val = slotOf s.cfg.params h.src →
          (s.registered k = false → t.lastCause = .rxNoVisitor ∧ t.history = s.history ++ List.map .tx txs)
          ∧ (s.registered k = true → h.dst = s.cfg.params.dstWater → t.lastCause = .rxWater ∧
              ∃ r, IsWaterRecord s.cfg.params.waterMap body r ∧
                t.history = s.history ++ [.ev (.water k (s.handleOf k) h.src r)] ++ List.map .tx txs)
          ∧ (s.registered k = true → h.dst = s.cfg.params.dstGas → t.lastCause = .rxGas ∧
              ∃ r, IsGasRecord s.cfg.params.gasMap body r ∧
                t.history = s.history ++ [.ev (.gas k (s.handleOf k) h.src r)] ++ List.map .tx txs))

/-- COMM_LOSS emits one ERROR event per registered slot, in ascending slot order, and changes nothing else (R207, R208). -/
def Obligations.CommLossNotifiesEveryVisitor : Prop :=
  ∀ s : State, ∃ slots : List (Fin 16),
    slots.Pairwise (· < ·) ∧ (∀ k, k ∈ slots ↔ s.registered k = true)
      ∧ exec .commLoss s = .next
          { s with history := s.history ++ slots.map fun k => .ev (.error k (s.handleOf k)) }

/-- Only REGISTER and reset write the visitor table, and a registered slot stays registered until reset (R29, R202, R211). -/
def Obligations.OnlyRegisterWritesTheVisitorTable : Prop :=
  ∀ s t : State, s.noReset → step s = .next t →
    (∀ k, s.registered k = true → t.registered k = true)
      ∧ ((t.visValid ≠ s.visValid ∨ t.visHandle ≠ s.visHandle) →
          ∃ w rest k h, s.schedule = .operation w :: rest ∧ decode w = .ok (.register k h))

/-! ### The command queue and the arbiter (spec/43_command_queue.md) -/

/-- With room for both frames, the paired commands append exactly their two frames, in order (R172 to R174). -/
def Obligations.PairedCommandsQueueTwoFrames : Prop :=
  ∀ s : State, s.queue.length + 2 ≤ s.cfg.params.queueDepth →
    exec .turnOn s = .next { s with queue := s.queue ++ [s.cfg.params.romTurnOn, s.cfg.params.romTurnOn] }
    ∧ exec .turnOff s = .next { s with queue := s.queue ++ [s.cfg.params.romTurnOff, s.cfg.params.romTurnOff] }
    ∧ exec .hotButton s = .next { s with queue := s.queue ++ [s.cfg.params.romHotPress, s.cfg.params.romHotRelease] }

/-- With room for one frame, the recirculation commands append exactly theirs (R177, R178). -/
def Obligations.RecircCommandsQueueOneFrame : Prop :=
  ∀ s : State, s.queue.length + 1 ≤ s.cfg.params.queueDepth →
    exec .recircOn s = .next { s with queue := s.queue ++ [s.cfg.params.romRecircOn] }
    ∧ exec .recircOff s = .next { s with queue := s.queue ++ [s.cfg.params.romRecircOff] }

/-- Without room for all its frames a command queues nothing and records ERR_Q_OVF (R171). -/
def Obligations.CommandsWithoutSpaceAreRefusedWhole : Prop :=
  ∀ s : State,
    let refused := Host.Outcome.next
      { s with flags := { s.flags with qOvf := true }, lastCause := .errQOvf }
    (s.cfg.params.queueDepth < s.queue.length + 2 →
      exec .turnOn s = refused ∧ exec .turnOff s = refused ∧ exec .hotButton s = refused)
    ∧ (s.cfg.params.queueDepth < s.queue.length + 1 →
      exec .recircOn s = refused ∧ exec .recircOff s = refused
        ∧ ∀ centi : Half, centi.toNat ≤ 12774 → exec (.setTemp centi) s = refused)

/-- SET_TEMP queues a copy of its template in which only the temperature byte and the checksum byte are rewritten: the
half-degree value, halves rounded up, and the checksum of the result under SEED_OTHER (R175). -/
def Obligations.SetTempRendersItsTemplate : Prop :=
  ∀ (s : State) (centi : Half), centi.toNat ≤ 12774 → s.queue.length + 1 ≤ s.cfg.params.queueDepth →
    ∃ f : Frame, exec (.setTemp centi) s = .next { s with queue := s.queue ++ [f] }
      ∧ f.length = s.cfg.params.romSetTemp.length
      ∧ (byteAt f s.cfg.params.tempOffset).toNat = (centi.toNat + 25) / 50
      ∧ byteAt f (f.length - 1) = checksum f (f.length - 1) 0x62#8
      ∧ ∀ i, i ≠ s.cfg.params.tempOffset → i ≠ f.length - 1 → byteAt f i = byteAt s.cfg.params.romSetTemp i

/-- An operand whose half-degree value does not fit a byte queues nothing and records ERR_TEMP_RANGE only, whatever the queue
holds (R176, R234). -/
def Obligations.SetTempOutOfRangeIsRefused : Prop :=
  ∀ (s : State) (centi : Half), 255 < (centi.toNat + 25) / 50 →
    exec (.setTemp centi) s = .next { s with flags := { s.flags with argErr := true }, lastCause := .errTempRange }

/-- An accepted control frame of the presence shape sets `other_present`; any other accepted control frame is only recorded;
neither notifies anybody (R179, R180). -/
def Obligations.ControlFrameDetectsPresence : Prop :=
  ∀ (s : State) (h : Header) (body : List Byte) (cs : Byte) (rest : List Byte), s.Accepts h body cs rest →
    frameClass s.cfg.params h = .control →
    ∃ t txs, exec .poll s = .next t ∧ t.history = s.history ++ List.map .tx txs
      ∧ (PresenceShape s.cfg.params h → t.otherPresent = true ∧ t.lastCause = .rxPresence)
      ∧ (¬ PresenceShape s.cfg.params h → t.otherPresent = s.otherPresent ∧ t.lastCause = .rxControl)

/-- While no competitor is known, every accepted frame that is no foreign presence frame is a TX opportunity: the heartbeat
advances, a queued frame goes first, else ROM_PRESENCE when the interval is reached (R181 to R184). -/
def Obligations.OpportunityBeforeACompetitor : Prop :=
  ∀ (s : State) (h : Header) (body : List Byte) (cs : Byte) (rest : List Byte), s.Accepts h body cs rest →
    ¬ IsForeignPresence s.cfg.params h → s.otherPresent = false →
    ∃ t evs txs, exec .poll s = .next t ∧ t.history = s.history ++ List.map .ev evs ++ List.map .tx txs
      ∧ t.otherPresent = false ∧ t.counters.tx = s.counters.tx + BitVec.ofNat 16 txs.length
      ∧ let hb := min (s.hbCnt.toNat + 1) s.cfg.params.presenceInterval
        (∀ f q, s.queue = f :: q → txs = [f] ∧ t.queue = q ∧ t.hbCnt.toNat = hb)
        ∧ (s.queue = [] → hb = s.cfg.params.presenceInterval →
            txs = [s.cfg.params.romPresence] ∧ t.queue = [] ∧ t.hbCnt = 0#8)
        ∧ (s.queue = [] → hb < s.cfg.params.presenceInterval → txs = [] ∧ t.queue = [] ∧ t.hbCnt.toNat = hb)

/-- A foreign presence frame is a TX opportunity whatever was known before: a queued frame goes, never ROM_PRESENCE, and the
heartbeat stands still (R181 to R183). -/
def Obligations.PresenceFrameIsAnOpportunity : Prop :=
  ∀ (s : State) (h : Header) (body : List Byte) (cs : Byte) (rest : List Byte), s.Accepts h body cs rest →
    IsForeignPresence s.cfg.params h →
    ∃ t txs, exec .poll s = .next t ∧ t.history = s.history ++ List.map .tx txs
      ∧ t.otherPresent = true ∧ t.hbCnt = s.hbCnt
      ∧ t.counters.tx = s.counters.tx + BitVec.ofNat 16 txs.length
      ∧ (∀ f q, s.queue = f :: q → txs = [f] ∧ t.queue = q)
      ∧ (s.queue = [] → txs = [] ∧ t.queue = [])

/-- Once a competitor is known, an accepted frame that is no foreign presence frame is no opportunity: nothing is
transmitted, the queue and the heartbeat stand still (R181, R182). -/
def Obligations.NoOpportunityAfterACompetitor : Prop :=
  ∀ (s : State) (h : Header) (body : List Byte) (cs : Byte) (rest : List Byte), s.Accepts h body cs rest →
    ¬ IsForeignPresence s.cfg.params h → s.otherPresent = true →
    ∃ t evs, exec .poll s = .next t ∧ t.history = s.history ++ List.map .ev evs
      ∧ t.queue = s.queue ∧ t.hbCnt = s.hbCnt ∧ t.counters.tx = s.counters.tx ∧ t.otherPresent = true

/-- A frame leaves the block only when a POLL accepts a frame, one at a time, and after a competitor is known only at its
presence frame (R181, R184). -/
def Obligations.TransmissionNeedsAnAcceptedFrame : Prop :=
  ∀ s t : State, step s = .next t → ∀ items, t.history = s.history ++ items → txFrames items ≠ [] →
    (∃ w rest, s.schedule = .operation w :: rest ∧ decode w = .ok .poll)
      ∧ t.counters.rxOk = s.counters.rxOk + 1#16 ∧ (txFrames items).length = 1
      ∧ t.counters.tx = s.counters.tx + 1#16
      ∧ (t.otherPresent = true → t.lastCause = .rxPresence)

/-- The queue is a FIFO that loses nothing: in a step that is not reset, what it held and what is added (at most two command
frames) is what is sent, in order, and what it holds after (R28, R170, R188). -/
def Obligations.QueueIsALosslessFifo : Prop :=
  ∀ s t : State, s.noReset → step s = .next t →
    ∃ (sent added : List Frame) (items : List Item),
      sent ++ t.queue = s.queue ++ added ∧ t.history = s.history ++ items
        ∧ added.length ≤ 2 ∧ (∀ f ∈ added, IsCommandFrame s.cfg.params f)
        ∧ (sent = txFrames items ∨ (sent = [] ∧ txFrames items = [s.cfg.params.romPresence] ∧ s.queue = []))

/-- `other_present` is set only by an accepted foreign presence frame (R26, R180). -/
def Obligations.OnlyAPresenceFrameSetsOtherPresent : Prop :=
  ∀ s t : State, step s = .next t → s.otherPresent = false → t.otherPresent = true →
    (∃ w rest, s.schedule = .operation w :: rest ∧ decode w = .ok .poll)
      ∧ IsForeignPresence s.cfg.params t.hdr ∧ t.counters.rxOk = s.counters.rxOk + 1#16 ∧ t.lastCause = .rxPresence

/-- Sticky arbitration over a run without reset: `other_present` stays, the heartbeat is frozen, and no ROM_PRESENCE is
transmitted, in a configuration whose commands are not ROM_PRESENCE itself (R26, R183, R186).  The premise on the
configuration is the model's (notes/assumptions/11.md), and so is the schedule (notes/assumptions/2.md). -/
def Obligations.ArbitrationIsSticky : Prop :=
  ∀ (n : Nat) (s : State), s.Legal → s.otherPresent = true → .hostReset ∉ s.schedule →
    ¬ IsCommandFrame s.cfg.params s.cfg.params.romPresence →
    (runSteps n s).otherPresent = true ∧ (runSteps n s).hbCnt = s.hbCnt
      ∧ ∃ items, (runSteps n s).history = s.history ++ items ∧ s.cfg.params.romPresence ∉ txFrames items

/-! ### Host control and registers (spec/45_host_control.md, spec/10_state.md) -/

/-- NOP changes nothing (R215). -/
def Obligations.NopChangesNothing : Prop := ∀ s : State, exec .nop s = .next s

/-- CLRERR clears the five sticky error flags and nothing else (R216). -/
def Obligations.ClrerrClearsTheErrorFlags : Prop :=
  ∀ s : State, exec .clrerr s = .next { s with flags := ⟨false, false, false, false, false⟩ }

/-- The fields of STATUS (R36), with the codes of the three receive states (R22) and of the sixteen outcomes (R230) as numbers;
in a legal state Q_COUNT is the number of queued frames. -/
def Obligations.StatusRegisterFields : Prop :=
  ∀ s : State,
    let w := s.regRead 0x00#8
    (s.rxState, w.extractLsb' 0 2) ∈ [(RxState.initial, 0#2), (.markerFound, 1#2), (.headerParsed, 2#2)]
      ∧ w.getLsbD 2 = s.otherPresent ∧ w.getLsbD 3 = s.flags.qOvf
      ∧ w.getLsbD 4 = s.flags.lenErr ∧ w.getLsbD 5 = s.flags.csumErr ∧ w.getLsbD 6 = s.flags.badOp
      ∧ w.getLsbD 7 = s.flags.argErr
      ∧ (s.lastCause, w.extractLsb' 8 8) ∈
          [(Cause.noCause, 0x00#8), (.rxWater, 0x01#8), (.rxGas, 0x02#8), (.rxNoVisitor, 0x03#8), (.rxSrcRange, 0x04#8),
            (.rxUnknownDst, 0x05#8), (.rxShort, 0x06#8), (.rxControl, 0x07#8), (.rxPresence, 0x08#8),
            (.rxForeignCtrl, 0x09#8), (.rxUnknownDir, 0x0A#8), (.errCsum, 0x10#8), (.errLen, 0x11#8),
            (.errQOvf, 0x20#8), (.errTempRange, 0x21#8), (.errBadOp, 0x22#8)]
      ∧ w.extractLsb' 0 2 = rxCode s.rxState ∧ w.extractLsb' 8 8 = causeCode s.lastCause
      ∧ (s.Legal → (w.extractLsb' 16 8).toNat = s.queue.length) ∧ w.extractLsb' 24 8 = s.hbCnt

/-- The counters, the header, the configuration, the visitor table and the body, as the register map lays them out
(R37 to R44). -/
def Obligations.RegisterMapFields : Prop :=
  ∀ s : State,
    (∀ k, k < 32 → (s.regRead 0x01#8).getLsbD k = (decide (k < 16) && s.visValid.getLsbD k))
    ∧ (s.regRead 0x02#8).extractLsb' 0 16 = s.counters.rxOk ∧ (s.regRead 0x02#8).extractLsb' 16 16 = s.counters.csumErr
    ∧ (s.regRead 0x03#8).extractLsb' 0 16 = s.counters.lenErr ∧ (s.regRead 0x03#8).extractLsb' 16 16 = s.counters.tx
    ∧ (∀ j, j < 4 → (s.regRead 0x04#8).extractLsb' (8 * j) 8 = byteAt (headerBytes s.hdr) j)
    ∧ (∀ j, j < 4 → (s.regRead 0x05#8).extractLsb' (8 * j) 8 = byteAt (headerBytes s.hdr) (4 + j))
    ∧ ((s.regRead 0x06#8).extractLsb' 0 8).toNat = s.cfg.params.queueDepth
    ∧ ((s.regRead 0x06#8).extractLsb' 8 8).toNat = s.cfg.params.presenceInterval
    ∧ (s.regRead 0x06#8).extractLsb' 16 16 = 121#16
    ∧ (∀ k : Fin 16, s.regRead (BitVec.ofNat 8 (0x10 + k.val))
        = (s.handleOf k).setWidth 32 ||| ((BitVec.ofBool (s.registered k)).setWidth 32 <<< 8))
    ∧ (∀ k j, k < 32 → j < 4 →
        (s.regRead (BitVec.ofNat 8 (0x20 + k))).extractLsb' (8 * j) 8 = byteAt s.body.toList (4 * k + j))

/-- The word addresses the map does not name read 0 (R44, R220). -/
def Obligations.UnassignedAddressesReadZero : Prop :=
  ∀ (s : State) (a : Byte), (0x07 ≤ a.toNat ∧ a.toNat ≤ 0x0F) ∨ 0x40 ≤ a.toNat → s.regRead a = 0#32

/-! ### Steps, reset and whole-machine rules (spec/10_state.md, spec/60_exceptions.md, spec/70_reset_and_hazards.md) -/

/-- A word the host writes that decodes to a well-formed operation runs that operation, with nothing around it but the
word's leaving the schedule; a word of a reserved opcode records BAD_OP and does nothing else (R58, R80, R82, R83, R217).  The
schedule is the model's way to hold what the host writes (notes/assumptions/2.md). -/
def Obligations.StepRunsTheDecodedOperation : Prop :=
  ∀ (s : State) (w : Word) (rest : List Input), s.schedule = .operation w :: rest →
    (∀ i : Instr, decode w = .ok i → i.wellFormed = true → step s = exec i { s with schedule := rest })
    ∧ (opcField w ∉ [0x00#8, 0x01#8, 0x02#8, 0x03#8, 0x04#8, 0x10#8, 0x11#8, 0x12#8, 0x13#8, 0x14#8, 0x15#8] →
        step s = .next
          { s with schedule := rest, flags := { s.flags with badOp := true }, lastCause := .errBadOp })

/-- A bus arrival appends its bytes at the tail of the byte source, a register read answers and changes nothing, and with
nothing scheduled the block holds its state (R220, R244, R247).  The schedule and the record of reads are the model's
(notes/assumptions/2.md, notes/assumptions/3.md). -/
def Obligations.StepServesTheOtherPorts : Prop :=
  ∀ (s : State) (rest : List Input),
    (∀ bytes, s.schedule = .arrival bytes :: rest →
      step s = .next { s with schedule := rest, source := s.source ++ bytes })
    ∧ (∀ a, s.schedule = .registerRead a :: rest →
      step s = .next { s with schedule := rest, reads := s.reads ++ [(a, s.regRead a)] })
    ∧ (s.schedule = [] → step s = .next s)

/-- Every word written to the operation port completes, in every state (R218). -/
def Obligations.EveryOperationCompletes : Prop :=
  ∀ (w : Word) (s : State), ∃ t, issue w s = .next t

/-- The reset input puts every element of the table of R260 at its reset value and leaves the byte source, the output history
and the configuration alone (R33, R260, R262).  That it also leaves the rest of the schedule and the record of register reads
alone is the model's (notes/assumptions/2.md, notes/assumptions/3.md). -/
def Obligations.ResetInputResetsTheBlock : Prop :=
  ∀ (s : State) (rest : List Input), s.schedule = .hostReset :: rest →
    ∃ t, step s = .next t
      ∧ t.rxState = .initial ∧ headerBytes t.hdr = List.replicate 6 0#8 ∧ t.body.toList = List.replicate 128 0#8
      ∧ t.otherPresent = false ∧ t.hbCnt = 0#8 ∧ t.queue = []
      ∧ (∀ k, t.registered k = false ∧ t.handleOf k = 0#8)
      ∧ t.flags = ⟨false, false, false, false, false⟩ ∧ causeCode t.lastCause = 0x00#8
      ∧ t.counters = ⟨0#16, 0#16, 0#16, 0#16⟩
      ∧ t.source = s.source ∧ t.history = s.history ∧ t.cfg = s.cfg ∧ t.schedule = rest ∧ t.reads = s.reads

/-- After reset every register but CONFIG reads 0, in every configuration (R36 to R44, R260). -/
def Obligations.RegistersReadZeroAfterReset : Prop :=
  ∀ (c : Config) (a : Byte), a ≠ 0x06#8 → (State.resetWith c).regRead a = 0#32 ∧ State.reset.regRead a = 0#32

/-- The state after reset is legal, in every configuration, and so in the one the machine starts with
(notes/assumptions/1.md).  That its byte source and its output history are empty is the model's choice
(notes/assumptions/4.md), and the clause on the frames sent rests on it. -/
def Obligations.ResetStateIsLegal : Prop := (∀ c : Config, (State.resetWith c).Legal) ∧ State.reset.Legal

/-- Every step from a legal state gives a legal state: the queue fits and holds command frames, the heartbeat is bounded, the
marker and the header are where the framer needs them, and only legal frames were sent (R22, R24, R28, R45, R88, R113). -/
def Obligations.StepsKeepTheStateLegal : Prop :=
  ∀ s t : State, s.Legal → step s = .next t → t.Legal

/-- No step writes the configuration, and the output history only grows, reset included (R33, R34, R262). -/
def Obligations.ConfigurationAndHistoryAreKept : Prop :=
  ∀ s t : State, step s = .next t → t.cfg = s.cfg ∧ s.history <+: t.history
end

