-- ==== Sys2Proof/Laws/Checksum.lean ====
section
/-! SUPPORT. The checksum engine, 16-bit values and slot numbers: what the later proofs cite of each. -/

namespace Sys2Proof.Machine

theorem checksumStep_le (seed : Byte) (acc : Half) (b : Byte) : (checksumStep seed acc b).toNat ≤ 0xFF := by
  have hb := b.isLt
  have h1 : ((checksumShift seed acc &&& 0x00FF#16)).toNat < 2 ^ 8 := by
    rw [BitVec.toNat_and]
    exact Nat.lt_of_le_of_lt Nat.and_le_right (by decide)
  have h2 : (b.setWidth 16).toNat < 2 ^ 8 := by simp; omega
  have := Nat.xor_lt_two_pow h1 h2
  rw [checksumStep, BitVec.toNat_xor]
  omega

theorem checksumAcc_append (bs cs : List Byte) (seed : Byte) :
    checksumAcc (bs ++ cs) seed = cs.foldl (checksumStep seed) (checksumAcc bs seed) := by
  simp [checksumAcc]

theorem checksumAcc_le (bs : List Byte) (seed : Byte) : (checksumAcc bs seed).toNat ≤ 0xFF := by
  rcases List.eq_nil_or_concat bs with rfl | ⟨l, b, rfl⟩
  · simp [checksumAcc]
  · rw [List.concat_eq_append, checksumAcc_append]
    exact checksumStep_le _ _ _

theorem checksum_take {bs cs : List Byte} {n : Nat} (seed : Byte) (h : bs.take n = cs.take n) :
    checksum bs n seed = checksum cs n seed := by
  simp [checksum, h]

theorem checksum_snoc (bs : List Byte) (b seed : Byte) (h : bs ≠ []) :
    checksum (bs ++ [b]) (bs.length + 1) seed = (checksumShift seed (checksumAcc bs seed)).setWidth 8 ^^^ b := by
  have hl : ¬ bs.length + 1 < 2 := by
    have := List.length_pos_iff.mpr h
    omega
  have ht : (bs ++ [b]).take (bs.length + 1) = bs ++ [b] := List.take_of_length_le (by simp)
  rw [checksum, if_neg hl, ht, checksumAcc_append]
  ext i hi
  have h2 : (0x00FF#8)[i] = true := by
    rw [show (0x00FF#8) = BitVec.allOnes 8 by decide, BitVec.getElem_allOnes]
  simp [checksumStep, h2]

theorem wordValue_toNat (hi lo : Byte) : (wordValue hi lo).toNat = hi.toNat * 256 + lo.toNat := by
  have h1 := hi.isLt
  have h2 := lo.isLt
  simp only [wordValue, BitVec.toNat_or, BitVec.toNat_shiftLeft, BitVec.toNat_setWidth, Nat.shiftLeft_eq]
  rw [show hi.toNat % 2 ^ 16 * 2 ^ 8 % 2 ^ 16 = 2 ^ 8 * hi.toNat by omega,
    show lo.toNat % 2 ^ 16 = lo.toNat by omega, ← Nat.two_pow_add_eq_or_of_lt (by omega)]
  omega

theorem slotOf_lt (p : Params) (src : Byte) : slotOf p src < 256 := (src - p.statusSrcBase).isLt

theorem slotOf_eq_iff (p : Params) (src : Byte) (k : Nat) (hk : k < 256) :
    slotOf p src = k ↔ src = p.statusSrcBase + BitVec.ofNat 8 k := by
  have := src.isLt
  have := p.statusSrcBase.isLt
  constructor
  · rintro rfl
    apply BitVec.eq_of_toNat_eq
    simp [slotOf, BitVec.toNat_sub]
    omega
  · rintro rfl
    simp only [slotOf]
    rw [BitVec.toNat_sub]
    simp
    omega

end Sys2Proof.Machine
end

