-- ==== Sys2Proof/Laws/Config.lean ====
section
/-! SUPPORT. What a configuration guarantees (R56, R77, R147), and what the operations over it compute. -/

namespace Sys2Proof.Machine

/-! ### What the constraints of R265 give, one lemma each -/

theorem requireThat_eq_nil {b : Bool} {e : ConfigError} : requireThat b e = [] ↔ b = true := by
  cases b <;> simp [requireThat]

theorem config_romViolations (c : Config) (r : RomName) : romViolations c.params r = [] := by
  have h := c.ok
  simp only [violations, List.append_eq_nil_iff, List.flatMap_eq_nil_iff] at h
  exact h.1.1.1.1.1.1.1.1 r (by cases r <;> simp)

theorem rom_length (c : Config) (r : RomName) :
    7 ≤ (romOf c.params r).length ∧ (romOf c.params r).length ≤ 64 := by
  have h := config_romViolations c r
  simp only [romViolations, List.append_eq_nil_iff, requireThat_eq_nil, Bool.and_eq_true, decide_eq_true_eq] at h
  exact h.1.1.1.1

theorem rom_marker (c : Config) (r : RomName) : byteAt (romOf c.params r) 0 = Wire.marker := by
  have h := config_romViolations c r
  simp only [romViolations, List.append_eq_nil_iff, requireThat_eq_nil, beq_iff_eq] at h
  exact h.1.1.1.2

theorem rom_bodyLength (c : Config) (r : RomName) :
    (byteAt (romOf c.params r) 5).toNat + 7 = (romOf c.params r).length := by
  have h := config_romViolations c r
  simp only [romViolations, List.append_eq_nil_iff, requireThat_eq_nil, beq_iff_eq] at h
  exact h.1.1.2

theorem rom_address (c : Config) (r : RomName) :
    byteAt (romOf c.params r) 2 = c.params.ctrlSrc ∧ byteAt (romOf c.params r) 4 = c.params.dirControl := by
  have h := config_romViolations c r
  simp only [romViolations, List.append_eq_nil_iff, requireThat_eq_nil, Bool.and_eq_true, beq_iff_eq] at h
  exact h.1.2

theorem rom_checksum (c : Config) (r : RomName) (hr : r ≠ .setTemp) :
    byteAt (romOf c.params r) ((romOf c.params r).length - 1)
      = checksum (romOf c.params r) ((romOf c.params r).length - 1) Wire.seedOther := by
  have h := config_romViolations c r
  simp only [romViolations, List.append_eq_nil_iff, requireThat_eq_nil, Bool.or_eq_true, beq_iff_eq, hr, false_or] at h
  exact h.2

theorem config_tempOffset (c : Config) : 6 ≤ c.params.tempOffset ∧ c.params.tempOffset + 2 ≤ c.params.romSetTemp.length := by
  have h := c.ok
  simp only [violations, List.append_eq_nil_iff, requireThat_eq_nil, Bool.and_eq_true, decide_eq_true_eq] at h
  exact h.1.1.1.1.1.1.1.2

theorem config_directions (c : Config) : c.params.dirStatus ≠ c.params.dirControl := by
  have h := c.ok
  simp only [violations, List.append_eq_nil_iff, requireThat_eq_nil, bne_iff_ne] at h
  exact h.1.1.1.1.1.1.2

theorem config_destinations (c : Config) : c.params.dstWater ≠ c.params.dstGas := by
  have h := c.ok
  simp only [violations, List.append_eq_nil_iff, requireThat_eq_nil, bne_iff_ne] at h
  exact h.1.1.1.1.1.2

theorem config_ctrlSrc (c : Config) : isStatusSrc c.params c.params.ctrlSrc = false := by
  have h := c.ok
  simp only [violations, List.append_eq_nil_iff, requireThat_eq_nil, Bool.not_eq_true'] at h
  exact h.1.1.1.1.2

theorem config_presenceInterval (c : Config) : 1 ≤ c.params.presenceInterval ∧ c.params.presenceInterval ≤ 255 := by
  have h := c.ok
  simp only [violations, List.append_eq_nil_iff, requireThat_eq_nil, Bool.and_eq_true, decide_eq_true_eq] at h
  exact h.1.2

theorem config_queueDepth (c : Config) : 2 ≤ c.params.queueDepth ∧ c.params.queueDepth ≤ 31 := by
  have h := c.ok
  simp only [violations, List.append_eq_nil_iff, requireThat_eq_nil, Bool.and_eq_true, decide_eq_true_eq] at h
  exact h.2

/-! ### Operations over a configuration -/

theorem isStatusSrc_iff (p : Params) (src : Byte) :
    isStatusSrc p src = true ↔ ∃ k, k ≤ 15 ∧ src = p.statusSrcBase + BitVec.ofNat 8 k := by
  rw [isStatusSrc, decide_eq_true_eq, Wire.nSlots]
  constructor
  · intro h
    exact ⟨slotOf p src, by omega, (slotOf_eq_iff p src _ (slotOf_lt p src)).1 rfl⟩
  · rintro ⟨k, hk, h⟩
    have := (slotOf_eq_iff p src k (by omega)).2 h
    omega

theorem seedFor_status_iff (p : Params) (src : Byte) : seedFor p src = 0x4B#8 ↔ isStatusSrc p src = true := by
  rw [seedFor]; split <;> simp_all [Wire.seedStatus, Wire.seedOther]

theorem byteAt_set_ne (f : Frame) (i j : Nat) (b : Byte) (h : i ≠ j) : byteAt (f.set i b) j = byteAt f j := by
  simp [byteAt, List.getD_eq_getElem?_getD, List.getElem?_set_ne h]

theorem byteAt_set_self (f : Frame) (i : Nat) (b : Byte) (h : i < f.length) : byteAt (f.set i b) i = b := by
  simp [byteAt, List.getD_eq_getElem?_getD, h]

/-- What SET_TEMP's rendering is, byte by byte (R175). -/
theorem renderSetTemp_spec (c : Config) (t : Byte) :
    (renderSetTemp c.params t).length = c.params.romSetTemp.length
    ∧ byteAt (renderSetTemp c.params t) c.params.tempOffset = t
    ∧ byteAt (renderSetTemp c.params t) (c.params.romSetTemp.length - 1)
        = checksum (renderSetTemp c.params t) (c.params.romSetTemp.length - 1) Wire.seedOther
    ∧ ∀ i, i ≠ c.params.tempOffset → i ≠ c.params.romSetTemp.length - 1 →
        byteAt (renderSetTemp c.params t) i = byteAt c.params.romSetTemp i := by
  obtain ⟨h1, h2⟩ := config_tempOffset c
  simp only [renderSetTemp, List.length_set]
  refine ⟨trivial, ?_, ?_, ?_⟩
  · rw [byteAt_set_ne _ _ _ _ (by omega), byteAt_set_self _ _ _ (by omega)]
  · rw [byteAt_set_self _ _ _ (by simp; omega)]
    exact checksum_take _ (List.take_set_of_le (Nat.le_refl _)).symm
  · intro i hi hj
    rw [byteAt_set_ne _ _ _ _ (Ne.symm hj), byteAt_set_ne _ _ _ _ (Ne.symm hi)]

theorem maskedValue_lt : ∀ (b m : Byte), contiguous m = true → (maskedValue b m).toNat < 2 ^ popcount m := by
  intro b m h
  simp only [contiguous, Bool.and_eq_true, bne_iff_ne, beq_iff_eq] at h
  rw [← h.2, maskedValue]
  simp only [BitVec.toNat_ushiftRight, BitVec.toNat_and, Nat.shiftRight_eq_div_pow]
  exact Nat.lt_succ_of_le (Nat.div_le_div_right Nat.and_le_right)

theorem popcount_one : ∀ m : Byte, popcount m = 1 → ∃ i, i < 8 ∧ m = BitVec.twoPow 8 i ∧ ctz m = i := by decide +kernel

end Sys2Proof.Machine
end

