-- ==== Sys2Proof/Laws/State.lean ====
section
/-! SUPPORT. For every named update of the state, what each field reads after it: true by definition, so that no later
proof unfolds a record update. -/

namespace Sys2Proof.Machine

variable (s : State)

@[simp] theorem State.withRx_cfg (r : RxState) : (s.withRx r).cfg = s.cfg := rfl
@[simp] theorem State.withRx_rxState (r : RxState) : (s.withRx r).rxState = r := rfl
@[simp] theorem State.withRx_hdr (r : RxState) : (s.withRx r).hdr = s.hdr := rfl
@[simp] theorem State.withRx_body (r : RxState) : (s.withRx r).body = s.body := rfl
@[simp] theorem State.withRx_otherPresent (r : RxState) : (s.withRx r).otherPresent = s.otherPresent := rfl
@[simp] theorem State.withRx_hbCnt (r : RxState) : (s.withRx r).hbCnt = s.hbCnt := rfl
@[simp] theorem State.withRx_queue (r : RxState) : (s.withRx r).queue = s.queue := rfl
@[simp] theorem State.withRx_visValid (r : RxState) : (s.withRx r).visValid = s.visValid := rfl
@[simp] theorem State.withRx_visHandle (r : RxState) : (s.withRx r).visHandle = s.visHandle := rfl
@[simp] theorem State.withRx_flags (r : RxState) : (s.withRx r).flags = s.flags := rfl
@[simp] theorem State.withRx_lastCause (r : RxState) : (s.withRx r).lastCause = s.lastCause := rfl
@[simp] theorem State.withRx_counters (r : RxState) : (s.withRx r).counters = s.counters := rfl
@[simp] theorem State.withRx_source (r : RxState) : (s.withRx r).source = s.source := rfl
@[simp] theorem State.withRx_history (r : RxState) : (s.withRx r).history = s.history := rfl
@[simp] theorem State.withRx_schedule (r : RxState) : (s.withRx r).schedule = s.schedule := rfl
@[simp] theorem State.withRx_reads (r : RxState) : (s.withRx r).reads = s.reads := rfl

@[simp] theorem State.withHdr_cfg (h : Header) : (s.withHdr h).cfg = s.cfg := rfl
@[simp] theorem State.withHdr_rxState (h : Header) : (s.withHdr h).rxState = s.rxState := rfl
@[simp] theorem State.withHdr_hdr (h : Header) : (s.withHdr h).hdr = h := rfl
@[simp] theorem State.withHdr_body (h : Header) : (s.withHdr h).body = s.body := rfl
@[simp] theorem State.withHdr_otherPresent (h : Header) : (s.withHdr h).otherPresent = s.otherPresent := rfl
@[simp] theorem State.withHdr_hbCnt (h : Header) : (s.withHdr h).hbCnt = s.hbCnt := rfl
@[simp] theorem State.withHdr_queue (h : Header) : (s.withHdr h).queue = s.queue := rfl
@[simp] theorem State.withHdr_visValid (h : Header) : (s.withHdr h).visValid = s.visValid := rfl
@[simp] theorem State.withHdr_visHandle (h : Header) : (s.withHdr h).visHandle = s.visHandle := rfl
@[simp] theorem State.withHdr_flags (h : Header) : (s.withHdr h).flags = s.flags := rfl
@[simp] theorem State.withHdr_lastCause (h : Header) : (s.withHdr h).lastCause = s.lastCause := rfl
@[simp] theorem State.withHdr_counters (h : Header) : (s.withHdr h).counters = s.counters := rfl
@[simp] theorem State.withHdr_source (h : Header) : (s.withHdr h).source = s.source := rfl
@[simp] theorem State.withHdr_history (h : Header) : (s.withHdr h).history = s.history := rfl
@[simp] theorem State.withHdr_schedule (h : Header) : (s.withHdr h).schedule = s.schedule := rfl
@[simp] theorem State.withHdr_reads (h : Header) : (s.withHdr h).reads = s.reads := rfl

@[simp] theorem State.withBody_cfg (b : Vector Byte 128) : (s.withBody b).cfg = s.cfg := rfl
@[simp] theorem State.withBody_rxState (b : Vector Byte 128) : (s.withBody b).rxState = s.rxState := rfl
@[simp] theorem State.withBody_hdr (b : Vector Byte 128) : (s.withBody b).hdr = s.hdr := rfl
@[simp] theorem State.withBody_body (b : Vector Byte 128) : (s.withBody b).body = b := rfl
@[simp] theorem State.withBody_otherPresent (b : Vector Byte 128) : (s.withBody b).otherPresent = s.otherPresent := rfl
@[simp] theorem State.withBody_hbCnt (b : Vector Byte 128) : (s.withBody b).hbCnt = s.hbCnt := rfl
@[simp] theorem State.withBody_queue (b : Vector Byte 128) : (s.withBody b).queue = s.queue := rfl
@[simp] theorem State.withBody_visValid (b : Vector Byte 128) : (s.withBody b).visValid = s.visValid := rfl
@[simp] theorem State.withBody_visHandle (b : Vector Byte 128) : (s.withBody b).visHandle = s.visHandle := rfl
@[simp] theorem State.withBody_flags (b : Vector Byte 128) : (s.withBody b).flags = s.flags := rfl
@[simp] theorem State.withBody_lastCause (b : Vector Byte 128) : (s.withBody b).lastCause = s.lastCause := rfl
@[simp] theorem State.withBody_counters (b : Vector Byte 128) : (s.withBody b).counters = s.counters := rfl
@[simp] theorem State.withBody_source (b : Vector Byte 128) : (s.withBody b).source = s.source := rfl
@[simp] theorem State.withBody_history (b : Vector Byte 128) : (s.withBody b).history = s.history := rfl
@[simp] theorem State.withBody_schedule (b : Vector Byte 128) : (s.withBody b).schedule = s.schedule := rfl
@[simp] theorem State.withBody_reads (b : Vector Byte 128) : (s.withBody b).reads = s.reads := rfl

@[simp] theorem State.withOtherPresent_cfg (b : Bool) : (s.withOtherPresent b).cfg = s.cfg := rfl
@[simp] theorem State.withOtherPresent_rxState (b : Bool) : (s.withOtherPresent b).rxState = s.rxState := rfl
@[simp] theorem State.withOtherPresent_hdr (b : Bool) : (s.withOtherPresent b).hdr = s.hdr := rfl
@[simp] theorem State.withOtherPresent_body (b : Bool) : (s.withOtherPresent b).body = s.body := rfl
@[simp] theorem State.withOtherPresent_otherPresent (b : Bool) : (s.withOtherPresent b).otherPresent = b := rfl
@[simp] theorem State.withOtherPresent_hbCnt (b : Bool) : (s.withOtherPresent b).hbCnt = s.hbCnt := rfl
@[simp] theorem State.withOtherPresent_queue (b : Bool) : (s.withOtherPresent b).queue = s.queue := rfl
@[simp] theorem State.withOtherPresent_visValid (b : Bool) : (s.withOtherPresent b).visValid = s.visValid := rfl
@[simp] theorem State.withOtherPresent_visHandle (b : Bool) : (s.withOtherPresent b).visHandle = s.visHandle := rfl
@[simp] theorem State.withOtherPresent_flags (b : Bool) : (s.withOtherPresent b).flags = s.flags := rfl
@[simp] theorem State.withOtherPresent_lastCause (b : Bool) : (s.withOtherPresent b).lastCause = s.lastCause := rfl
@[simp] theorem State.withOtherPresent_counters (b : Bool) : (s.withOtherPresent b).counters = s.counters := rfl
@[simp] theorem State.withOtherPresent_source (b : Bool) : (s.withOtherPresent b).source = s.source := rfl
@[simp] theorem State.withOtherPresent_history (b : Bool) : (s.withOtherPresent b).history = s.history := rfl
@[simp] theorem State.withOtherPresent_schedule (b : Bool) : (s.withOtherPresent b).schedule = s.schedule := rfl
@[simp] theorem State.withOtherPresent_reads (b : Bool) : (s.withOtherPresent b).reads = s.reads := rfl

@[simp] theorem State.withHbCnt_cfg (n : Byte) : (s.withHbCnt n).cfg = s.cfg := rfl
@[simp] theorem State.withHbCnt_rxState (n : Byte) : (s.withHbCnt n).rxState = s.rxState := rfl
@[simp] theorem State.withHbCnt_hdr (n : Byte) : (s.withHbCnt n).hdr = s.hdr := rfl
@[simp] theorem State.withHbCnt_body (n : Byte) : (s.withHbCnt n).body = s.body := rfl
@[simp] theorem State.withHbCnt_otherPresent (n : Byte) : (s.withHbCnt n).otherPresent = s.otherPresent := rfl
@[simp] theorem State.withHbCnt_hbCnt (n : Byte) : (s.withHbCnt n).hbCnt = n := rfl
@[simp] theorem State.withHbCnt_queue (n : Byte) : (s.withHbCnt n).queue = s.queue := rfl
@[simp] theorem State.withHbCnt_visValid (n : Byte) : (s.withHbCnt n).visValid = s.visValid := rfl
@[simp] theorem State.withHbCnt_visHandle (n : Byte) : (s.withHbCnt n).visHandle = s.visHandle := rfl
@[simp] theorem State.withHbCnt_flags (n : Byte) : (s.withHbCnt n).flags = s.flags := rfl
@[simp] theorem State.withHbCnt_lastCause (n : Byte) : (s.withHbCnt n).lastCause = s.lastCause := rfl
@[simp] theorem State.withHbCnt_counters (n : Byte) : (s.withHbCnt n).counters = s.counters := rfl
@[simp] theorem State.withHbCnt_source (n : Byte) : (s.withHbCnt n).source = s.source := rfl
@[simp] theorem State.withHbCnt_history (n : Byte) : (s.withHbCnt n).history = s.history := rfl
@[simp] theorem State.withHbCnt_schedule (n : Byte) : (s.withHbCnt n).schedule = s.schedule := rfl
@[simp] theorem State.withHbCnt_reads (n : Byte) : (s.withHbCnt n).reads = s.reads := rfl

@[simp] theorem State.withQueue_cfg (q : List Frame) : (s.withQueue q).cfg = s.cfg := rfl
@[simp] theorem State.withQueue_rxState (q : List Frame) : (s.withQueue q).rxState = s.rxState := rfl
@[simp] theorem State.withQueue_hdr (q : List Frame) : (s.withQueue q).hdr = s.hdr := rfl
@[simp] theorem State.withQueue_body (q : List Frame) : (s.withQueue q).body = s.body := rfl
@[simp] theorem State.withQueue_otherPresent (q : List Frame) : (s.withQueue q).otherPresent = s.otherPresent := rfl
@[simp] theorem State.withQueue_hbCnt (q : List Frame) : (s.withQueue q).hbCnt = s.hbCnt := rfl
@[simp] theorem State.withQueue_queue (q : List Frame) : (s.withQueue q).queue = q := rfl
@[simp] theorem State.withQueue_visValid (q : List Frame) : (s.withQueue q).visValid = s.visValid := rfl
@[simp] theorem State.withQueue_visHandle (q : List Frame) : (s.withQueue q).visHandle = s.visHandle := rfl
@[simp] theorem State.withQueue_flags (q : List Frame) : (s.withQueue q).flags = s.flags := rfl
@[simp] theorem State.withQueue_lastCause (q : List Frame) : (s.withQueue q).lastCause = s.lastCause := rfl
@[simp] theorem State.withQueue_counters (q : List Frame) : (s.withQueue q).counters = s.counters := rfl
@[simp] theorem State.withQueue_source (q : List Frame) : (s.withQueue q).source = s.source := rfl
@[simp] theorem State.withQueue_history (q : List Frame) : (s.withQueue q).history = s.history := rfl
@[simp] theorem State.withQueue_schedule (q : List Frame) : (s.withQueue q).schedule = s.schedule := rfl
@[simp] theorem State.withQueue_reads (q : List Frame) : (s.withQueue q).reads = s.reads := rfl

@[simp] theorem State.withVisitor_cfg (k : Fin 16) (h : Byte) : (s.withVisitor k h).cfg = s.cfg := rfl
@[simp] theorem State.withVisitor_rxState (k : Fin 16) (h : Byte) : (s.withVisitor k h).rxState = s.rxState := rfl
@[simp] theorem State.withVisitor_hdr (k : Fin 16) (h : Byte) : (s.withVisitor k h).hdr = s.hdr := rfl
@[simp] theorem State.withVisitor_body (k : Fin 16) (h : Byte) : (s.withVisitor k h).body = s.body := rfl
@[simp] theorem State.withVisitor_otherPresent (k : Fin 16) (h : Byte) : (s.withVisitor k h).otherPresent = s.otherPresent := rfl
@[simp] theorem State.withVisitor_hbCnt (k : Fin 16) (h : Byte) : (s.withVisitor k h).hbCnt = s.hbCnt := rfl
@[simp] theorem State.withVisitor_queue (k : Fin 16) (h : Byte) : (s.withVisitor k h).queue = s.queue := rfl
@[simp] theorem State.withVisitor_visValid (k : Fin 16) (h : Byte) : (s.withVisitor k h).visValid = s.visValid ||| BitVec.twoPow 16 k.val := rfl
@[simp] theorem State.withVisitor_visHandle (k : Fin 16) (h : Byte) : (s.withVisitor k h).visHandle = s.visHandle.set k.val h := rfl
@[simp] theorem State.withVisitor_flags (k : Fin 16) (h : Byte) : (s.withVisitor k h).flags = s.flags := rfl
@[simp] theorem State.withVisitor_lastCause (k : Fin 16) (h : Byte) : (s.withVisitor k h).lastCause = s.lastCause := rfl
@[simp] theorem State.withVisitor_counters (k : Fin 16) (h : Byte) : (s.withVisitor k h).counters = s.counters := rfl
@[simp] theorem State.withVisitor_source (k : Fin 16) (h : Byte) : (s.withVisitor k h).source = s.source := rfl
@[simp] theorem State.withVisitor_history (k : Fin 16) (h : Byte) : (s.withVisitor k h).history = s.history := rfl
@[simp] theorem State.withVisitor_schedule (k : Fin 16) (h : Byte) : (s.withVisitor k h).schedule = s.schedule := rfl
@[simp] theorem State.withVisitor_reads (k : Fin 16) (h : Byte) : (s.withVisitor k h).reads = s.reads := rfl

@[simp] theorem State.withFlags_cfg (f : ErrFlags) : (s.withFlags f).cfg = s.cfg := rfl
@[simp] theorem State.withFlags_rxState (f : ErrFlags) : (s.withFlags f).rxState = s.rxState := rfl
@[simp] theorem State.withFlags_hdr (f : ErrFlags) : (s.withFlags f).hdr = s.hdr := rfl
@[simp] theorem State.withFlags_body (f : ErrFlags) : (s.withFlags f).body = s.body := rfl
@[simp] theorem State.withFlags_otherPresent (f : ErrFlags) : (s.withFlags f).otherPresent = s.otherPresent := rfl
@[simp] theorem State.withFlags_hbCnt (f : ErrFlags) : (s.withFlags f).hbCnt = s.hbCnt := rfl
@[simp] theorem State.withFlags_queue (f : ErrFlags) : (s.withFlags f).queue = s.queue := rfl
@[simp] theorem State.withFlags_visValid (f : ErrFlags) : (s.withFlags f).visValid = s.visValid := rfl
@[simp] theorem State.withFlags_visHandle (f : ErrFlags) : (s.withFlags f).visHandle = s.visHandle := rfl
@[simp] theorem State.withFlags_flags (f : ErrFlags) : (s.withFlags f).flags = f := rfl
@[simp] theorem State.withFlags_lastCause (f : ErrFlags) : (s.withFlags f).lastCause = s.lastCause := rfl
@[simp] theorem State.withFlags_counters (f : ErrFlags) : (s.withFlags f).counters = s.counters := rfl
@[simp] theorem State.withFlags_source (f : ErrFlags) : (s.withFlags f).source = s.source := rfl
@[simp] theorem State.withFlags_history (f : ErrFlags) : (s.withFlags f).history = s.history := rfl
@[simp] theorem State.withFlags_schedule (f : ErrFlags) : (s.withFlags f).schedule = s.schedule := rfl
@[simp] theorem State.withFlags_reads (f : ErrFlags) : (s.withFlags f).reads = s.reads := rfl

@[simp] theorem State.withCause_cfg (c : Cause) : (s.withCause c).cfg = s.cfg := rfl
@[simp] theorem State.withCause_rxState (c : Cause) : (s.withCause c).rxState = s.rxState := rfl
@[simp] theorem State.withCause_hdr (c : Cause) : (s.withCause c).hdr = s.hdr := rfl
@[simp] theorem State.withCause_body (c : Cause) : (s.withCause c).body = s.body := rfl
@[simp] theorem State.withCause_otherPresent (c : Cause) : (s.withCause c).otherPresent = s.otherPresent := rfl
@[simp] theorem State.withCause_hbCnt (c : Cause) : (s.withCause c).hbCnt = s.hbCnt := rfl
@[simp] theorem State.withCause_queue (c : Cause) : (s.withCause c).queue = s.queue := rfl
@[simp] theorem State.withCause_visValid (c : Cause) : (s.withCause c).visValid = s.visValid := rfl
@[simp] theorem State.withCause_visHandle (c : Cause) : (s.withCause c).visHandle = s.visHandle := rfl
@[simp] theorem State.withCause_flags (c : Cause) : (s.withCause c).flags = s.flags := rfl
@[simp] theorem State.withCause_lastCause (c : Cause) : (s.withCause c).lastCause = c := rfl
@[simp] theorem State.withCause_counters (c : Cause) : (s.withCause c).counters = s.counters := rfl
@[simp] theorem State.withCause_source (c : Cause) : (s.withCause c).source = s.source := rfl
@[simp] theorem State.withCause_history (c : Cause) : (s.withCause c).history = s.history := rfl
@[simp] theorem State.withCause_schedule (c : Cause) : (s.withCause c).schedule = s.schedule := rfl
@[simp] theorem State.withCause_reads (c : Cause) : (s.withCause c).reads = s.reads := rfl

@[simp] theorem State.withCounters_cfg (c : Counters) : (s.withCounters c).cfg = s.cfg := rfl
@[simp] theorem State.withCounters_rxState (c : Counters) : (s.withCounters c).rxState = s.rxState := rfl
@[simp] theorem State.withCounters_hdr (c : Counters) : (s.withCounters c).hdr = s.hdr := rfl
@[simp] theorem State.withCounters_body (c : Counters) : (s.withCounters c).body = s.body := rfl
@[simp] theorem State.withCounters_otherPresent (c : Counters) : (s.withCounters c).otherPresent = s.otherPresent := rfl
@[simp] theorem State.withCounters_hbCnt (c : Counters) : (s.withCounters c).hbCnt = s.hbCnt := rfl
@[simp] theorem State.withCounters_queue (c : Counters) : (s.withCounters c).queue = s.queue := rfl
@[simp] theorem State.withCounters_visValid (c : Counters) : (s.withCounters c).visValid = s.visValid := rfl
@[simp] theorem State.withCounters_visHandle (c : Counters) : (s.withCounters c).visHandle = s.visHandle := rfl
@[simp] theorem State.withCounters_flags (c : Counters) : (s.withCounters c).flags = s.flags := rfl
@[simp] theorem State.withCounters_lastCause (c : Counters) : (s.withCounters c).lastCause = s.lastCause := rfl
@[simp] theorem State.withCounters_counters (c : Counters) : (s.withCounters c).counters = c := rfl
@[simp] theorem State.withCounters_source (c : Counters) : (s.withCounters c).source = s.source := rfl
@[simp] theorem State.withCounters_history (c : Counters) : (s.withCounters c).history = s.history := rfl
@[simp] theorem State.withCounters_schedule (c : Counters) : (s.withCounters c).schedule = s.schedule := rfl
@[simp] theorem State.withCounters_reads (c : Counters) : (s.withCounters c).reads = s.reads := rfl

@[simp] theorem State.withSource_cfg (b : List Byte) : (s.withSource b).cfg = s.cfg := rfl
@[simp] theorem State.withSource_rxState (b : List Byte) : (s.withSource b).rxState = s.rxState := rfl
@[simp] theorem State.withSource_hdr (b : List Byte) : (s.withSource b).hdr = s.hdr := rfl
@[simp] theorem State.withSource_body (b : List Byte) : (s.withSource b).body = s.body := rfl
@[simp] theorem State.withSource_otherPresent (b : List Byte) : (s.withSource b).otherPresent = s.otherPresent := rfl
@[simp] theorem State.withSource_hbCnt (b : List Byte) : (s.withSource b).hbCnt = s.hbCnt := rfl
@[simp] theorem State.withSource_queue (b : List Byte) : (s.withSource b).queue = s.queue := rfl
@[simp] theorem State.withSource_visValid (b : List Byte) : (s.withSource b).visValid = s.visValid := rfl
@[simp] theorem State.withSource_visHandle (b : List Byte) : (s.withSource b).visHandle = s.visHandle := rfl
@[simp] theorem State.withSource_flags (b : List Byte) : (s.withSource b).flags = s.flags := rfl
@[simp] theorem State.withSource_lastCause (b : List Byte) : (s.withSource b).lastCause = s.lastCause := rfl
@[simp] theorem State.withSource_counters (b : List Byte) : (s.withSource b).counters = s.counters := rfl
@[simp] theorem State.withSource_source (b : List Byte) : (s.withSource b).source = b := rfl
@[simp] theorem State.withSource_history (b : List Byte) : (s.withSource b).history = s.history := rfl
@[simp] theorem State.withSource_schedule (b : List Byte) : (s.withSource b).schedule = s.schedule := rfl
@[simp] theorem State.withSource_reads (b : List Byte) : (s.withSource b).reads = s.reads := rfl

@[simp] theorem State.emit_cfg (l : List Item) : (s.emit l).cfg = s.cfg := rfl
@[simp] theorem State.emit_rxState (l : List Item) : (s.emit l).rxState = s.rxState := rfl
@[simp] theorem State.emit_hdr (l : List Item) : (s.emit l).hdr = s.hdr := rfl
@[simp] theorem State.emit_body (l : List Item) : (s.emit l).body = s.body := rfl
@[simp] theorem State.emit_otherPresent (l : List Item) : (s.emit l).otherPresent = s.otherPresent := rfl
@[simp] theorem State.emit_hbCnt (l : List Item) : (s.emit l).hbCnt = s.hbCnt := rfl
@[simp] theorem State.emit_queue (l : List Item) : (s.emit l).queue = s.queue := rfl
@[simp] theorem State.emit_visValid (l : List Item) : (s.emit l).visValid = s.visValid := rfl
@[simp] theorem State.emit_visHandle (l : List Item) : (s.emit l).visHandle = s.visHandle := rfl
@[simp] theorem State.emit_flags (l : List Item) : (s.emit l).flags = s.flags := rfl
@[simp] theorem State.emit_lastCause (l : List Item) : (s.emit l).lastCause = s.lastCause := rfl
@[simp] theorem State.emit_counters (l : List Item) : (s.emit l).counters = s.counters := rfl
@[simp] theorem State.emit_source (l : List Item) : (s.emit l).source = s.source := rfl
@[simp] theorem State.emit_history (l : List Item) : (s.emit l).history = s.history ++ l := rfl
@[simp] theorem State.emit_schedule (l : List Item) : (s.emit l).schedule = s.schedule := rfl
@[simp] theorem State.emit_reads (l : List Item) : (s.emit l).reads = s.reads := rfl

@[simp] theorem State.withSchedule_cfg (l : List Input) : (s.withSchedule l).cfg = s.cfg := rfl
@[simp] theorem State.withSchedule_rxState (l : List Input) : (s.withSchedule l).rxState = s.rxState := rfl
@[simp] theorem State.withSchedule_hdr (l : List Input) : (s.withSchedule l).hdr = s.hdr := rfl
@[simp] theorem State.withSchedule_body (l : List Input) : (s.withSchedule l).body = s.body := rfl
@[simp] theorem State.withSchedule_otherPresent (l : List Input) : (s.withSchedule l).otherPresent = s.otherPresent := rfl
@[simp] theorem State.withSchedule_hbCnt (l : List Input) : (s.withSchedule l).hbCnt = s.hbCnt := rfl
@[simp] theorem State.withSchedule_queue (l : List Input) : (s.withSchedule l).queue = s.queue := rfl
@[simp] theorem State.withSchedule_visValid (l : List Input) : (s.withSchedule l).visValid = s.visValid := rfl
@[simp] theorem State.withSchedule_visHandle (l : List Input) : (s.withSchedule l).visHandle = s.visHandle := rfl
@[simp] theorem State.withSchedule_flags (l : List Input) : (s.withSchedule l).flags = s.flags := rfl
@[simp] theorem State.withSchedule_lastCause (l : List Input) : (s.withSchedule l).lastCause = s.lastCause := rfl
@[simp] theorem State.withSchedule_counters (l : List Input) : (s.withSchedule l).counters = s.counters := rfl
@[simp] theorem State.withSchedule_source (l : List Input) : (s.withSchedule l).source = s.source := rfl
@[simp] theorem State.withSchedule_history (l : List Input) : (s.withSchedule l).history = s.history := rfl
@[simp] theorem State.withSchedule_schedule (l : List Input) : (s.withSchedule l).schedule = l := rfl
@[simp] theorem State.withSchedule_reads (l : List Input) : (s.withSchedule l).reads = s.reads := rfl

@[simp] theorem State.answer_cfg (a : Byte) (w : Word) : (s.answer a w).cfg = s.cfg := rfl
@[simp] theorem State.answer_rxState (a : Byte) (w : Word) : (s.answer a w).rxState = s.rxState := rfl
@[simp] theorem State.answer_hdr (a : Byte) (w : Word) : (s.answer a w).hdr = s.hdr := rfl
@[simp] theorem State.answer_body (a : Byte) (w : Word) : (s.answer a w).body = s.body := rfl
@[simp] theorem State.answer_otherPresent (a : Byte) (w : Word) : (s.answer a w).otherPresent = s.otherPresent := rfl
@[simp] theorem State.answer_hbCnt (a : Byte) (w : Word) : (s.answer a w).hbCnt = s.hbCnt := rfl
@[simp] theorem State.answer_queue (a : Byte) (w : Word) : (s.answer a w).queue = s.queue := rfl
@[simp] theorem State.answer_visValid (a : Byte) (w : Word) : (s.answer a w).visValid = s.visValid := rfl
@[simp] theorem State.answer_visHandle (a : Byte) (w : Word) : (s.answer a w).visHandle = s.visHandle := rfl
@[simp] theorem State.answer_flags (a : Byte) (w : Word) : (s.answer a w).flags = s.flags := rfl
@[simp] theorem State.answer_lastCause (a : Byte) (w : Word) : (s.answer a w).lastCause = s.lastCause := rfl
@[simp] theorem State.answer_counters (a : Byte) (w : Word) : (s.answer a w).counters = s.counters := rfl
@[simp] theorem State.answer_source (a : Byte) (w : Word) : (s.answer a w).source = s.source := rfl
@[simp] theorem State.answer_history (a : Byte) (w : Word) : (s.answer a w).history = s.history := rfl
@[simp] theorem State.answer_schedule (a : Byte) (w : Word) : (s.answer a w).schedule = s.schedule := rfl
@[simp] theorem State.answer_reads (a : Byte) (w : Word) : (s.answer a w).reads = s.reads ++ [(a, w)] := rfl

@[simp] theorem State.consume_cfg (n : Nat) : (s.consume n).cfg = s.cfg := rfl
@[simp] theorem State.consume_rxState (n : Nat) : (s.consume n).rxState = s.rxState := rfl
@[simp] theorem State.consume_hdr (n : Nat) : (s.consume n).hdr = s.hdr := rfl
@[simp] theorem State.consume_body (n : Nat) : (s.consume n).body = s.body := rfl
@[simp] theorem State.consume_otherPresent (n : Nat) : (s.consume n).otherPresent = s.otherPresent := rfl
@[simp] theorem State.consume_hbCnt (n : Nat) : (s.consume n).hbCnt = s.hbCnt := rfl
@[simp] theorem State.consume_queue (n : Nat) : (s.consume n).queue = s.queue := rfl
@[simp] theorem State.consume_visValid (n : Nat) : (s.consume n).visValid = s.visValid := rfl
@[simp] theorem State.consume_visHandle (n : Nat) : (s.consume n).visHandle = s.visHandle := rfl
@[simp] theorem State.consume_flags (n : Nat) : (s.consume n).flags = s.flags := rfl
@[simp] theorem State.consume_lastCause (n : Nat) : (s.consume n).lastCause = s.lastCause := rfl
@[simp] theorem State.consume_counters (n : Nat) : (s.consume n).counters = s.counters := rfl
@[simp] theorem State.consume_source (n : Nat) : (s.consume n).source = s.source.drop n := rfl
@[simp] theorem State.consume_history (n : Nat) : (s.consume n).history = s.history := rfl
@[simp] theorem State.consume_schedule (n : Nat) : (s.consume n).schedule = s.schedule := rfl
@[simp] theorem State.consume_reads (n : Nat) : (s.consume n).reads = s.reads := rfl

@[simp] theorem State.transmit_cfg (f : Frame) : (s.transmit f).cfg = s.cfg := rfl
@[simp] theorem State.transmit_rxState (f : Frame) : (s.transmit f).rxState = s.rxState := rfl
@[simp] theorem State.transmit_hdr (f : Frame) : (s.transmit f).hdr = s.hdr := rfl
@[simp] theorem State.transmit_body (f : Frame) : (s.transmit f).body = s.body := rfl
@[simp] theorem State.transmit_otherPresent (f : Frame) : (s.transmit f).otherPresent = s.otherPresent := rfl
@[simp] theorem State.transmit_hbCnt (f : Frame) : (s.transmit f).hbCnt = s.hbCnt := rfl
@[simp] theorem State.transmit_queue (f : Frame) : (s.transmit f).queue = s.queue := rfl
@[simp] theorem State.transmit_visValid (f : Frame) : (s.transmit f).visValid = s.visValid := rfl
@[simp] theorem State.transmit_visHandle (f : Frame) : (s.transmit f).visHandle = s.visHandle := rfl
@[simp] theorem State.transmit_flags (f : Frame) : (s.transmit f).flags = s.flags := rfl
@[simp] theorem State.transmit_lastCause (f : Frame) : (s.transmit f).lastCause = s.lastCause := rfl
@[simp] theorem State.transmit_counters (f : Frame) : (s.transmit f).counters = s.counters.bumpTx := rfl
@[simp] theorem State.transmit_source (f : Frame) : (s.transmit f).source = s.source := rfl
@[simp] theorem State.transmit_history (f : Frame) : (s.transmit f).history = s.history ++ [.tx f] := rfl
@[simp] theorem State.transmit_schedule (f : Frame) : (s.transmit f).schedule = s.schedule := rfl
@[simp] theorem State.transmit_reads (f : Frame) : (s.transmit f).reads = s.reads := rfl

@[simp] theorem State.recordError_cfg (f : ErrFlags) (c : Cause) : (s.recordError f c).cfg = s.cfg := rfl
@[simp] theorem State.recordError_rxState (f : ErrFlags) (c : Cause) : (s.recordError f c).rxState = s.rxState := rfl
@[simp] theorem State.recordError_hdr (f : ErrFlags) (c : Cause) : (s.recordError f c).hdr = s.hdr := rfl
@[simp] theorem State.recordError_body (f : ErrFlags) (c : Cause) : (s.recordError f c).body = s.body := rfl
@[simp] theorem State.recordError_otherPresent (f : ErrFlags) (c : Cause) : (s.recordError f c).otherPresent = s.otherPresent := rfl
@[simp] theorem State.recordError_hbCnt (f : ErrFlags) (c : Cause) : (s.recordError f c).hbCnt = s.hbCnt := rfl
@[simp] theorem State.recordError_queue (f : ErrFlags) (c : Cause) : (s.recordError f c).queue = s.queue := rfl
@[simp] theorem State.recordError_visValid (f : ErrFlags) (c : Cause) : (s.recordError f c).visValid = s.visValid := rfl
@[simp] theorem State.recordError_visHandle (f : ErrFlags) (c : Cause) : (s.recordError f c).visHandle = s.visHandle := rfl
@[simp] theorem State.recordError_flags (f : ErrFlags) (c : Cause) : (s.recordError f c).flags = f := rfl
@[simp] theorem State.recordError_lastCause (f : ErrFlags) (c : Cause) : (s.recordError f c).lastCause = c := rfl
@[simp] theorem State.recordError_counters (f : ErrFlags) (c : Cause) : (s.recordError f c).counters = s.counters := rfl
@[simp] theorem State.recordError_source (f : ErrFlags) (c : Cause) : (s.recordError f c).source = s.source := rfl
@[simp] theorem State.recordError_history (f : ErrFlags) (c : Cause) : (s.recordError f c).history = s.history := rfl
@[simp] theorem State.recordError_schedule (f : ErrFlags) (c : Cause) : (s.recordError f c).schedule = s.schedule := rfl
@[simp] theorem State.recordError_reads (f : ErrFlags) (c : Cause) : (s.recordError f c).reads = s.reads := rfl

@[simp] theorem State.arrive_cfg (b : List Byte) : (s.arrive b).cfg = s.cfg := rfl
@[simp] theorem State.arrive_rxState (b : List Byte) : (s.arrive b).rxState = s.rxState := rfl
@[simp] theorem State.arrive_hdr (b : List Byte) : (s.arrive b).hdr = s.hdr := rfl
@[simp] theorem State.arrive_body (b : List Byte) : (s.arrive b).body = s.body := rfl
@[simp] theorem State.arrive_otherPresent (b : List Byte) : (s.arrive b).otherPresent = s.otherPresent := rfl
@[simp] theorem State.arrive_hbCnt (b : List Byte) : (s.arrive b).hbCnt = s.hbCnt := rfl
@[simp] theorem State.arrive_queue (b : List Byte) : (s.arrive b).queue = s.queue := rfl
@[simp] theorem State.arrive_visValid (b : List Byte) : (s.arrive b).visValid = s.visValid := rfl
@[simp] theorem State.arrive_visHandle (b : List Byte) : (s.arrive b).visHandle = s.visHandle := rfl
@[simp] theorem State.arrive_flags (b : List Byte) : (s.arrive b).flags = s.flags := rfl
@[simp] theorem State.arrive_lastCause (b : List Byte) : (s.arrive b).lastCause = s.lastCause := rfl
@[simp] theorem State.arrive_counters (b : List Byte) : (s.arrive b).counters = s.counters := rfl
@[simp] theorem State.arrive_source (b : List Byte) : (s.arrive b).source = s.source ++ b := rfl
@[simp] theorem State.arrive_history (b : List Byte) : (s.arrive b).history = s.history := rfl
@[simp] theorem State.arrive_schedule (b : List Byte) : (s.arrive b).schedule = s.schedule := rfl
@[simp] theorem State.arrive_reads (b : List Byte) : (s.arrive b).reads = s.reads := rfl

@[simp] theorem State.hostReset_cfg : s.hostReset.cfg = s.cfg := rfl
@[simp] theorem State.hostReset_rxState : s.hostReset.rxState = .initial := rfl
@[simp] theorem State.hostReset_hdr : s.hostReset.hdr = ⟨0#8, 0#8, 0#8, 0#8, 0#8, 0#8⟩ := rfl
@[simp] theorem State.hostReset_body : s.hostReset.body = Vector.replicate 128 0#8 := rfl
@[simp] theorem State.hostReset_otherPresent : s.hostReset.otherPresent = false := rfl
@[simp] theorem State.hostReset_hbCnt : s.hostReset.hbCnt = 0#8 := rfl
@[simp] theorem State.hostReset_queue : s.hostReset.queue = [] := rfl
@[simp] theorem State.hostReset_visValid : s.hostReset.visValid = 0#16 := rfl
@[simp] theorem State.hostReset_visHandle : s.hostReset.visHandle = Vector.replicate 16 0#8 := rfl
@[simp] theorem State.hostReset_flags : s.hostReset.flags = ⟨false, false, false, false, false⟩ := rfl
@[simp] theorem State.hostReset_lastCause : s.hostReset.lastCause = .noCause := rfl
@[simp] theorem State.hostReset_counters : s.hostReset.counters = ⟨0#16, 0#16, 0#16, 0#16⟩ := rfl
@[simp] theorem State.hostReset_source : s.hostReset.source = s.source := rfl
@[simp] theorem State.hostReset_history : s.hostReset.history = s.history := rfl
@[simp] theorem State.hostReset_schedule : s.hostReset.schedule = s.schedule := rfl
@[simp] theorem State.hostReset_reads : s.hostReset.reads = s.reads := rfl

end Sys2Proof.Machine
end

