-- ==== Sys2Proof/Laws/Frame.lean ====
section
/-! SUPPORT. What the parts of a frame completion leave unchanged: one lemma per part and field. -/

namespace Sys2Proof.Machine

section
variable (s : State)

@[simp] theorem State.heartbeat_cfg : (s.heartbeat).cfg = s.cfg := rfl
@[simp] theorem State.heartbeat_rxState : (s.heartbeat).rxState = s.rxState := rfl
@[simp] theorem State.heartbeat_hdr : (s.heartbeat).hdr = s.hdr := rfl
@[simp] theorem State.heartbeat_body : (s.heartbeat).body = s.body := rfl
@[simp] theorem State.heartbeat_otherPresent : (s.heartbeat).otherPresent = s.otherPresent := rfl
@[simp] theorem State.heartbeat_queue : (s.heartbeat).queue = s.queue := rfl
@[simp] theorem State.heartbeat_visValid : (s.heartbeat).visValid = s.visValid := rfl
@[simp] theorem State.heartbeat_visHandle : (s.heartbeat).visHandle = s.visHandle := rfl
@[simp] theorem State.heartbeat_flags : (s.heartbeat).flags = s.flags := rfl
@[simp] theorem State.heartbeat_lastCause : (s.heartbeat).lastCause = s.lastCause := rfl
@[simp] theorem State.heartbeat_counters : (s.heartbeat).counters = s.counters := rfl
@[simp] theorem State.heartbeat_source : (s.heartbeat).source = s.source := rfl
@[simp] theorem State.heartbeat_history : (s.heartbeat).history = s.history := rfl
@[simp] theorem State.heartbeat_schedule : (s.heartbeat).schedule = s.schedule := rfl
@[simp] theorem State.heartbeat_reads : (s.heartbeat).reads = s.reads := rfl

@[simp] theorem State.sendOne_cfg : s.sendOne.cfg = s.cfg := by
  rw [State.sendOne]
  split
  · rfl
  · split <;> rfl

@[simp] theorem State.sendOne_rxState : s.sendOne.rxState = s.rxState := by
  rw [State.sendOne]
  split
  · rfl
  · split <;> rfl

@[simp] theorem State.sendOne_hdr : s.sendOne.hdr = s.hdr := by
  rw [State.sendOne]
  split
  · rfl
  · split <;> rfl

@[simp] theorem State.sendOne_body : s.sendOne.body = s.body := by
  rw [State.sendOne]
  split
  · rfl
  · split <;> rfl

@[simp] theorem State.sendOne_otherPresent : s.sendOne.otherPresent = s.otherPresent := by
  rw [State.sendOne]
  split
  · rfl
  · split <;> rfl

@[simp] theorem State.sendOne_visValid : s.sendOne.visValid = s.visValid := by
  rw [State.sendOne]
  split
  · rfl
  · split <;> rfl

@[simp] theorem State.sendOne_visHandle : s.sendOne.visHandle = s.visHandle := by
  rw [State.sendOne]
  split
  · rfl
  · split <;> rfl

@[simp] theorem State.sendOne_flags : s.sendOne.flags = s.flags := by
  rw [State.sendOne]
  split
  · rfl
  · split <;> rfl

@[simp] theorem State.sendOne_lastCause : s.sendOne.lastCause = s.lastCause := by
  rw [State.sendOne]
  split
  · rfl
  · split <;> rfl

@[simp] theorem State.sendOne_source : s.sendOne.source = s.source := by
  rw [State.sendOne]
  split
  · rfl
  · split <;> rfl

@[simp] theorem State.sendOne_schedule : s.sendOne.schedule = s.schedule := by
  rw [State.sendOne]
  split
  · rfl
  · split <;> rfl

@[simp] theorem State.sendOne_reads : s.sendOne.reads = s.reads := by
  rw [State.sendOne]
  split
  · rfl
  · split <;> rfl

@[simp] theorem State.arbiter_cfg (c : Completion) : (s.arbiter c).cfg = s.cfg := by
  cases c <;> simp only [State.arbiter] <;> (try split) <;> simp

@[simp] theorem State.arbiter_rxState (c : Completion) : (s.arbiter c).rxState = s.rxState := by
  cases c <;> simp only [State.arbiter] <;> (try split) <;> simp

@[simp] theorem State.arbiter_hdr (c : Completion) : (s.arbiter c).hdr = s.hdr := by
  cases c <;> simp only [State.arbiter] <;> (try split) <;> simp

@[simp] theorem State.arbiter_body (c : Completion) : (s.arbiter c).body = s.body := by
  cases c <;> simp only [State.arbiter] <;> (try split) <;> simp

@[simp] theorem State.arbiter_otherPresent (c : Completion) : (s.arbiter c).otherPresent = s.otherPresent := by
  cases c <;> simp only [State.arbiter] <;> (try split) <;> simp

@[simp] theorem State.arbiter_visValid (c : Completion) : (s.arbiter c).visValid = s.visValid := by
  cases c <;> simp only [State.arbiter] <;> (try split) <;> simp

@[simp] theorem State.arbiter_visHandle (c : Completion) : (s.arbiter c).visHandle = s.visHandle := by
  cases c <;> simp only [State.arbiter] <;> (try split) <;> simp

@[simp] theorem State.arbiter_flags (c : Completion) : (s.arbiter c).flags = s.flags := by
  cases c <;> simp only [State.arbiter] <;> (try split) <;> simp

@[simp] theorem State.arbiter_lastCause (c : Completion) : (s.arbiter c).lastCause = s.lastCause := by
  cases c <;> simp only [State.arbiter] <;> (try split) <;> simp

@[simp] theorem State.arbiter_source (c : Completion) : (s.arbiter c).source = s.source := by
  cases c <;> simp only [State.arbiter] <;> (try split) <;> simp

@[simp] theorem State.arbiter_schedule (c : Completion) : (s.arbiter c).schedule = s.schedule := by
  cases c <;> simp only [State.arbiter] <;> (try split) <;> simp

@[simp] theorem State.arbiter_reads (c : Completion) : (s.arbiter c).reads = s.reads := by
  cases c <;> simp only [State.arbiter] <;> (try split) <;> simp

@[simp] theorem State.dispatch_cfg (d : Decoded) : (s.dispatch d).cfg = s.cfg := by
  rw [State.dispatch]
  split
  · dsimp only
    split <;> rfl
  · rfl

@[simp] theorem State.dispatch_rxState (d : Decoded) : (s.dispatch d).rxState = s.rxState := by
  rw [State.dispatch]
  split
  · dsimp only
    split <;> rfl
  · rfl

@[simp] theorem State.dispatch_hdr (d : Decoded) : (s.dispatch d).hdr = s.hdr := by
  rw [State.dispatch]
  split
  · dsimp only
    split <;> rfl
  · rfl

@[simp] theorem State.dispatch_body (d : Decoded) : (s.dispatch d).body = s.body := by
  rw [State.dispatch]
  split
  · dsimp only
    split <;> rfl
  · rfl

@[simp] theorem State.dispatch_otherPresent (d : Decoded) : (s.dispatch d).otherPresent = s.otherPresent := by
  rw [State.dispatch]
  split
  · dsimp only
    split <;> rfl
  · rfl

@[simp] theorem State.dispatch_hbCnt (d : Decoded) : (s.dispatch d).hbCnt = s.hbCnt := by
  rw [State.dispatch]
  split
  · dsimp only
    split <;> rfl
  · rfl

@[simp] theorem State.dispatch_queue (d : Decoded) : (s.dispatch d).queue = s.queue := by
  rw [State.dispatch]
  split
  · dsimp only
    split <;> rfl
  · rfl

@[simp] theorem State.dispatch_visValid (d : Decoded) : (s.dispatch d).visValid = s.visValid := by
  rw [State.dispatch]
  split
  · dsimp only
    split <;> rfl
  · rfl

@[simp] theorem State.dispatch_visHandle (d : Decoded) : (s.dispatch d).visHandle = s.visHandle := by
  rw [State.dispatch]
  split
  · dsimp only
    split <;> rfl
  · rfl

@[simp] theorem State.dispatch_flags (d : Decoded) : (s.dispatch d).flags = s.flags := by
  rw [State.dispatch]
  split
  · dsimp only
    split <;> rfl
  · rfl

@[simp] theorem State.dispatch_counters (d : Decoded) : (s.dispatch d).counters = s.counters := by
  rw [State.dispatch]
  split
  · dsimp only
    split <;> rfl
  · rfl

@[simp] theorem State.dispatch_source (d : Decoded) : (s.dispatch d).source = s.source := by
  rw [State.dispatch]
  split
  · dsimp only
    split <;> rfl
  · rfl

@[simp] theorem State.dispatch_schedule (d : Decoded) : (s.dispatch d).schedule = s.schedule := by
  rw [State.dispatch]
  split
  · dsimp only
    split <;> rfl
  · rfl

@[simp] theorem State.dispatch_reads (d : Decoded) : (s.dispatch d).reads = s.reads := by
  rw [State.dispatch]
  split
  · dsimp only
    split <;> rfl
  · rfl

@[simp] theorem State.decodeWater_cfg : s.decodeWater.cfg = s.cfg := by
  rw [State.decodeWater]
  split <;> simp

@[simp] theorem State.decodeWater_rxState : s.decodeWater.rxState = s.rxState := by
  rw [State.decodeWater]
  split <;> simp

@[simp] theorem State.decodeWater_hdr : s.decodeWater.hdr = s.hdr := by
  rw [State.decodeWater]
  split <;> simp

@[simp] theorem State.decodeWater_body : s.decodeWater.body = s.body := by
  rw [State.decodeWater]
  split <;> simp

@[simp] theorem State.decodeWater_otherPresent : s.decodeWater.otherPresent = s.otherPresent := by
  rw [State.decodeWater]
  split <;> simp

@[simp] theorem State.decodeWater_hbCnt : s.decodeWater.hbCnt = s.hbCnt := by
  rw [State.decodeWater]
  split <;> simp

@[simp] theorem State.decodeWater_queue : s.decodeWater.queue = s.queue := by
  rw [State.decodeWater]
  split <;> simp

@[simp] theorem State.decodeWater_visValid : s.decodeWater.visValid = s.visValid := by
  rw [State.decodeWater]
  split <;> simp

@[simp] theorem State.decodeWater_visHandle : s.decodeWater.visHandle = s.visHandle := by
  rw [State.decodeWater]
  split <;> simp

@[simp] theorem State.decodeWater_flags : s.decodeWater.flags = s.flags := by
  rw [State.decodeWater]
  split <;> simp

@[simp] theorem State.decodeWater_counters : s.decodeWater.counters = s.counters := by
  rw [State.decodeWater]
  split <;> simp

@[simp] theorem State.decodeWater_source : s.decodeWater.source = s.source := by
  rw [State.decodeWater]
  split <;> simp

@[simp] theorem State.decodeWater_schedule : s.decodeWater.schedule = s.schedule := by
  rw [State.decodeWater]
  split <;> simp

@[simp] theorem State.decodeWater_reads : s.decodeWater.reads = s.reads := by
  rw [State.decodeWater]
  split <;> simp

@[simp] theorem State.decodeGas_cfg : s.decodeGas.cfg = s.cfg := by
  rw [State.decodeGas]
  split <;> simp

@[simp] theorem State.decodeGas_rxState : s.decodeGas.rxState = s.rxState := by
  rw [State.decodeGas]
  split <;> simp

@[simp] theorem State.decodeGas_hdr : s.decodeGas.hdr = s.hdr := by
  rw [State.decodeGas]
  split <;> simp

@[simp] theorem State.decodeGas_body : s.decodeGas.body = s.body := by
  rw [State.decodeGas]
  split <;> simp

@[simp] theorem State.decodeGas_otherPresent : s.decodeGas.otherPresent = s.otherPresent := by
  rw [State.decodeGas]
  split <;> simp

@[simp] theorem State.decodeGas_hbCnt : s.decodeGas.hbCnt = s.hbCnt := by
  rw [State.decodeGas]
  split <;> simp

@[simp] theorem State.decodeGas_queue : s.decodeGas.queue = s.queue := by
  rw [State.decodeGas]
  split <;> simp

@[simp] theorem State.decodeGas_visValid : s.decodeGas.visValid = s.visValid := by
  rw [State.decodeGas]
  split <;> simp

@[simp] theorem State.decodeGas_visHandle : s.decodeGas.visHandle = s.visHandle := by
  rw [State.decodeGas]
  split <;> simp

@[simp] theorem State.decodeGas_flags : s.decodeGas.flags = s.flags := by
  rw [State.decodeGas]
  split <;> simp

@[simp] theorem State.decodeGas_counters : s.decodeGas.counters = s.counters := by
  rw [State.decodeGas]
  split <;> simp

@[simp] theorem State.decodeGas_source : s.decodeGas.source = s.source := by
  rw [State.decodeGas]
  split <;> simp

@[simp] theorem State.decodeGas_schedule : s.decodeGas.schedule = s.schedule := by
  rw [State.decodeGas]
  split <;> simp

@[simp] theorem State.decodeGas_reads : s.decodeGas.reads = s.reads := by
  rw [State.decodeGas]
  split <;> simp

@[simp] theorem State.decodeStatus_cfg : s.decodeStatus.cfg = s.cfg := by
  rw [State.decodeStatus]
  split_ifs <;> simp

@[simp] theorem State.decodeStatus_rxState : s.decodeStatus.rxState = s.rxState := by
  rw [State.decodeStatus]
  split_ifs <;> simp

@[simp] theorem State.decodeStatus_hdr : s.decodeStatus.hdr = s.hdr := by
  rw [State.decodeStatus]
  split_ifs <;> simp

@[simp] theorem State.decodeStatus_body : s.decodeStatus.body = s.body := by
  rw [State.decodeStatus]
  split_ifs <;> simp

@[simp] theorem State.decodeStatus_otherPresent : s.decodeStatus.otherPresent = s.otherPresent := by
  rw [State.decodeStatus]
  split_ifs <;> simp

@[simp] theorem State.decodeStatus_hbCnt : s.decodeStatus.hbCnt = s.hbCnt := by
  rw [State.decodeStatus]
  split_ifs <;> simp

@[simp] theorem State.decodeStatus_queue : s.decodeStatus.queue = s.queue := by
  rw [State.decodeStatus]
  split_ifs <;> simp

@[simp] theorem State.decodeStatus_visValid : s.decodeStatus.visValid = s.visValid := by
  rw [State.decodeStatus]
  split_ifs <;> simp

@[simp] theorem State.decodeStatus_visHandle : s.decodeStatus.visHandle = s.visHandle := by
  rw [State.decodeStatus]
  split_ifs <;> simp

@[simp] theorem State.decodeStatus_flags : s.decodeStatus.flags = s.flags := by
  rw [State.decodeStatus]
  split_ifs <;> simp

@[simp] theorem State.decodeStatus_counters : s.decodeStatus.counters = s.counters := by
  rw [State.decodeStatus]
  split_ifs <;> simp

@[simp] theorem State.decodeStatus_source : s.decodeStatus.source = s.source := by
  rw [State.decodeStatus]
  split_ifs <;> simp

@[simp] theorem State.decodeStatus_schedule : s.decodeStatus.schedule = s.schedule := by
  rw [State.decodeStatus]
  split_ifs <;> simp

@[simp] theorem State.decodeStatus_reads : s.decodeStatus.reads = s.reads := by
  rw [State.decodeStatus]
  split_ifs <;> simp

@[simp] theorem State.presence_cfg : s.presence.2.cfg = s.cfg := by
  rw [State.presence]
  split <;> rfl

@[simp] theorem State.presence_rxState : s.presence.2.rxState = s.rxState := by
  rw [State.presence]
  split <;> rfl

@[simp] theorem State.presence_hdr : s.presence.2.hdr = s.hdr := by
  rw [State.presence]
  split <;> rfl

@[simp] theorem State.presence_body : s.presence.2.body = s.body := by
  rw [State.presence]
  split <;> rfl

@[simp] theorem State.presence_hbCnt : s.presence.2.hbCnt = s.hbCnt := by
  rw [State.presence]
  split <;> rfl

@[simp] theorem State.presence_queue : s.presence.2.queue = s.queue := by
  rw [State.presence]
  split <;> rfl

@[simp] theorem State.presence_visValid : s.presence.2.visValid = s.visValid := by
  rw [State.presence]
  split <;> rfl

@[simp] theorem State.presence_visHandle : s.presence.2.visHandle = s.visHandle := by
  rw [State.presence]
  split <;> rfl

@[simp] theorem State.presence_flags : s.presence.2.flags = s.flags := by
  rw [State.presence]
  split <;> rfl

@[simp] theorem State.presence_counters : s.presence.2.counters = s.counters := by
  rw [State.presence]
  split <;> rfl

@[simp] theorem State.presence_source : s.presence.2.source = s.source := by
  rw [State.presence]
  split <;> rfl

@[simp] theorem State.presence_history : s.presence.2.history = s.history := by
  rw [State.presence]
  split <;> rfl

@[simp] theorem State.presence_schedule : s.presence.2.schedule = s.schedule := by
  rw [State.presence]
  split <;> rfl

@[simp] theorem State.presence_reads : s.presence.2.reads = s.reads := by
  rw [State.presence]
  split <;> rfl

@[simp] theorem State.csumMismatch_cfg : (s.csumMismatch).cfg = s.cfg := rfl
@[simp] theorem State.csumMismatch_rxState : (s.csumMismatch).rxState = s.rxState := rfl
@[simp] theorem State.csumMismatch_hdr : (s.csumMismatch).hdr = s.hdr := rfl
@[simp] theorem State.csumMismatch_body : (s.csumMismatch).body = s.body := rfl
@[simp] theorem State.csumMismatch_otherPresent : (s.csumMismatch).otherPresent = s.otherPresent := rfl
@[simp] theorem State.csumMismatch_hbCnt : (s.csumMismatch).hbCnt = s.hbCnt := rfl
@[simp] theorem State.csumMismatch_queue : (s.csumMismatch).queue = s.queue := rfl
@[simp] theorem State.csumMismatch_visValid : (s.csumMismatch).visValid = s.visValid := rfl
@[simp] theorem State.csumMismatch_visHandle : (s.csumMismatch).visHandle = s.visHandle := rfl
@[simp] theorem State.csumMismatch_source : (s.csumMismatch).source = s.source := rfl
@[simp] theorem State.csumMismatch_history : (s.csumMismatch).history = s.history := rfl
@[simp] theorem State.csumMismatch_schedule : (s.csumMismatch).schedule = s.schedule := rfl
@[simp] theorem State.csumMismatch_reads : (s.csumMismatch).reads = s.reads := rfl

@[simp] theorem State.classify_cfg : s.classify.2.cfg = s.cfg := by
  rw [State.classify]
  split <;> simp only [State.validated] <;> (try split) <;> simp

@[simp] theorem State.classify_rxState : s.classify.2.rxState = s.rxState := by
  rw [State.classify]
  split <;> simp only [State.validated] <;> (try split) <;> simp

@[simp] theorem State.classify_hdr : s.classify.2.hdr = s.hdr := by
  rw [State.classify]
  split <;> simp only [State.validated] <;> (try split) <;> simp

@[simp] theorem State.classify_body : s.classify.2.body = s.body := by
  rw [State.classify]
  split <;> simp only [State.validated] <;> (try split) <;> simp

@[simp] theorem State.classify_hbCnt : s.classify.2.hbCnt = s.hbCnt := by
  rw [State.classify]
  split <;> simp only [State.validated] <;> (try split) <;> simp

@[simp] theorem State.classify_queue : s.classify.2.queue = s.queue := by
  rw [State.classify]
  split <;> simp only [State.validated] <;> (try split) <;> simp

@[simp] theorem State.classify_visValid : s.classify.2.visValid = s.visValid := by
  rw [State.classify]
  split <;> simp only [State.validated] <;> (try split) <;> simp

@[simp] theorem State.classify_visHandle : s.classify.2.visHandle = s.visHandle := by
  rw [State.classify]
  split <;> simp only [State.validated] <;> (try split) <;> simp

@[simp] theorem State.classify_source : s.classify.2.source = s.source := by
  rw [State.classify]
  split <;> simp only [State.validated] <;> (try split) <;> simp

@[simp] theorem State.classify_schedule : s.classify.2.schedule = s.schedule := by
  rw [State.classify]
  split <;> simp only [State.validated] <;> (try split) <;> simp

@[simp] theorem State.classify_reads : s.classify.2.reads = s.reads := by
  rw [State.classify]
  split <;> simp only [State.validated] <;> (try split) <;> simp

@[simp] theorem State.completeFrame_cfg : s.completeFrame.cfg = s.cfg := by
  simp [State.completeFrame]

@[simp] theorem State.completeFrame_rxState : s.completeFrame.rxState = s.rxState := by
  simp [State.completeFrame]

@[simp] theorem State.completeFrame_hdr : s.completeFrame.hdr = s.hdr := by
  simp [State.completeFrame]

@[simp] theorem State.completeFrame_body : s.completeFrame.body = s.body := by
  simp [State.completeFrame]

@[simp] theorem State.completeFrame_visValid : s.completeFrame.visValid = s.visValid := by
  simp [State.completeFrame]

@[simp] theorem State.completeFrame_visHandle : s.completeFrame.visHandle = s.visHandle := by
  simp [State.completeFrame]

@[simp] theorem State.completeFrame_source : s.completeFrame.source = s.source := by
  simp [State.completeFrame]

@[simp] theorem State.completeFrame_schedule : s.completeFrame.schedule = s.schedule := by
  simp [State.completeFrame]

@[simp] theorem State.completeFrame_reads : s.completeFrame.reads = s.reads := by
  simp [State.completeFrame]

end

end Sys2Proof.Machine
end

