-- ==== Sys2Proof/Laws/Arbitration.lean ====
section
/-! SUPPORT. Transmission and the arbiter: everything an opportunity can do (`sendOne_cases`, `arbiter_cases`). -/

namespace Sys2Proof.Machine

theorem sendOne_queued (s : State) (f : Frame) (q : List Frame) (h : s.queue = f :: q) :
    s.sendOne = (s.transmit f).withQueue q := by
  rw [State.sendOne, h]

theorem sendOne_presence (s : State) (h : s.queue = []) (ho : s.otherPresent = false)
    (hb : s.hbCnt.toNat = s.cfg.params.presenceInterval) :
    s.sendOne = (s.transmit s.cfg.params.romPresence).withHbCnt 0x00#8 := by
  rw [State.sendOne, h]; simp [ho, hb]

theorem sendOne_idle (s : State) (h : s.queue = [])
    (hn : ¬ (s.otherPresent = false ∧ s.hbCnt.toNat = s.cfg.params.presenceInterval)) : s.sendOne = s := by
  rw [State.sendOne, h]; simp only [if_neg hn]

/-- Everything a transmission opportunity can do (R182): a queued frame goes, or ROM_PRESENCE, or nothing. -/
theorem sendOne_cases (s : State) :
    (∃ f q, s.queue = f :: q ∧ s.sendOne = (s.transmit f).withQueue q)
    ∨ (s.queue = [] ∧ s.otherPresent = false ∧ s.hbCnt.toNat = s.cfg.params.presenceInterval
        ∧ s.sendOne = (s.transmit s.cfg.params.romPresence).withHbCnt 0x00#8)
    ∨ (s.queue = [] ∧ s.sendOne = s) := by
  rcases h : s.queue with _ | ⟨f, q⟩
  · by_cases hn : s.otherPresent = false ∧ s.hbCnt.toNat = s.cfg.params.presenceInterval
    · exact .inr (.inl ⟨rfl, hn.1, hn.2, sendOne_presence s h hn.1 hn.2⟩)
    · exact .inr (.inr ⟨rfl, sendOne_idle s h hn⟩)
  · exact .inl ⟨f, q, rfl, sendOne_queued s f q h⟩

/-- Of the counters, an opportunity touches `tx_cnt` only. -/
theorem sendOne_counters (s : State) :
    ∃ n, s.sendOne.counters = { s.counters with tx := s.counters.tx + BitVec.ofNat 16 n } := by
  obtain ⟨f, q, -, he⟩ | ⟨-, -, -, he⟩ | ⟨-, he⟩ := sendOne_cases s
  · exact ⟨1, by rw [he]; rfl⟩
  · exact ⟨1, by rw [he]; rfl⟩
  · exact ⟨0, by rw [he]; simp⟩

theorem heartbeat_toNat (s : State) :
    s.heartbeat.hbCnt.toNat = min (s.hbCnt.toNat + 1) s.cfg.params.presenceInterval := by
  have := (config_presenceInterval s.cfg).2
  simp only [State.heartbeat, State.withHbCnt_hbCnt, BitVec.toNat_ofNat]
  omega

/-- Everything the arbiter can do with a completion (R181, R182). -/
theorem arbiter_cases (s : State) (c : Completion) :
    (c = .notAccepted ∧ s.arbiter c = s)
    ∨ (c = .accepted ∧ s.otherPresent = true ∧ s.arbiter c = s)
    ∨ (c = .foreignPresence ∧ s.otherPresent = true ∧ s.arbiter c = s.sendOne)
    ∨ (c ≠ .notAccepted ∧ s.otherPresent = false ∧ s.arbiter c = s.heartbeat.sendOne) := by
  cases c <;> cases h : s.otherPresent <;> simp [State.arbiter, h]

theorem sendOne_withRx (s : State) (r : RxState) : s.sendOne.withRx r = (s.withRx r).sendOne := by
  rcases h : s.queue with _ | ⟨f, q⟩
  · by_cases hn : s.otherPresent = false ∧ s.hbCnt.toNat = s.cfg.params.presenceInterval
    · rw [sendOne_presence s h hn.1 hn.2, sendOne_presence (s.withRx r) h hn.1 hn.2]; rfl
    · rw [sendOne_idle s h hn, sendOne_idle (s.withRx r) h hn]
  · rw [sendOne_queued s f q h, sendOne_queued (s.withRx r) f q h]; rfl

theorem heartbeat_withRx (s : State) (r : RxState) : s.heartbeat.withRx r = (s.withRx r).heartbeat := rfl

theorem sendOne_history (u : State) : ∃ fs : List Frame, u.sendOne.history = u.history ++ fs.map .tx := by
  obtain ⟨f, q, -, he⟩ | ⟨-, -, -, he⟩ | ⟨-, he⟩ := sendOne_cases u
  · exact ⟨[f], by rw [he]; rfl⟩
  · exact ⟨[u.cfg.params.romPresence], by rw [he]; rfl⟩
  · exact ⟨[], by rw [he]; simp⟩

@[simp] theorem txFrames_nil : txFrames [] = [] := rfl

@[simp] theorem txFrames_cons_tx (f : Frame) (l : List Item) : txFrames (.tx f :: l) = f :: txFrames l := rfl

@[simp] theorem txFrames_cons_ev (e : Event) (l : List Item) : txFrames (.ev e :: l) = txFrames l := rfl

@[simp] theorem txFrames_map_ev (evs : List Event) : txFrames (evs.map .ev) = [] := by
  simp [txFrames]

@[simp] theorem txFrames_map_tx (fs : List Frame) : txFrames (fs.map .tx) = fs := by
  simp [txFrames]

@[simp] theorem txFrames_append (a b : List Item) : txFrames (a ++ b) = txFrames a ++ txFrames b := by
  simp [txFrames]

end Sys2Proof.Machine
end

