-- ==== Sys2Proof/Laws/Commands.lean ====
section
/-! SUPPORT. The queue, SET_TEMP, and everything an operation other than POLL can do (`exec_other`). -/

namespace Sys2Proof.Machine

theorem enqueue_fits (s : State) (fs : List Frame) (h : s.queue.length + fs.length ≤ s.cfg.params.queueDepth) :
    s.enqueue fs = { s with queue := s.queue ++ fs } := by
  rw [State.enqueue, if_neg (by omega)]; rfl

theorem enqueue_full (s : State) (fs : List Frame) (h : s.cfg.params.queueDepth < s.queue.length + fs.length) :
    s.enqueue fs = { s with flags := { s.flags with qOvf := true }, lastCause := .errQOvf } := by
  rw [State.enqueue, if_pos h]; rfl

theorem tempByte_le_iff (centi : Half) : tempByte centi ≤ 255 ↔ centi.toNat ≤ 12774 := by
  rw [tempByte]; omega

theorem setTemp_inRange (s : State) (centi : Half) (h : centi.toNat ≤ 12774) :
    s.setTemp centi = s.enqueue [renderSetTemp s.cfg.params (BitVec.ofNat 8 (tempByte centi))] := by
  have := (tempByte_le_iff centi).2 h
  rw [State.setTemp, if_neg (by omega)]

/-- Everything an operation other than POLL can do: append command frames to the queue if they fit, emit events, write flags,
the outcome code, and, if it is REGISTER, the visitor table. -/
theorem exec_other (i : Instr) (s : State) (hi : i ≠ .poll) :
    ∃ (added : List Frame) (evs : List Event) (f : ErrFlags) (c : Cause) (valid : BitVec 16) (handles : Vector Byte 16),
      exec i s = .next { s with
        queue := s.queue ++ added, history := s.history ++ evs.map .ev, flags := f, lastCause := c
        visValid := valid, visHandle := handles }
      ∧ added.length ≤ 2 ∧ (∀ g ∈ added, IsCommandFrame s.cfg.params g)
      ∧ (added = [] ∨ s.queue.length + added.length ≤ s.cfg.params.queueDepth)
      ∧ ((∀ k h, i ≠ .register k h) → valid = s.visValid ∧ handles = s.visHandle)
      ∧ (∀ k : Fin 16, s.registered k = true → valid.getLsbD k.val = true)
      ∧ (c = s.lastCause ∨ c = .errQOvf ∨ c = .errTempRange) := by
  have enq : ∀ fs : List Frame, fs.length ≤ 2 → (∀ g ∈ fs, IsCommandFrame s.cfg.params g) → ∃ (added : List Frame) (evs : List Event) (f : ErrFlags) (c : Cause) (valid : BitVec 16) (handles : Vector Byte 16),
      (Host.Outcome.next (s.enqueue fs) : Host.Outcome State Fault Refusal) = .next { s with
        queue := s.queue ++ added, history := s.history ++ evs.map .ev, flags := f, lastCause := c
        visValid := valid, visHandle := handles }
      ∧ added.length ≤ 2 ∧ (∀ g ∈ added, IsCommandFrame s.cfg.params g)
      ∧ (added = [] ∨ s.queue.length + added.length ≤ s.cfg.params.queueDepth)
      ∧ ((∀ k h, i ≠ .register k h) → valid = s.visValid ∧ handles = s.visHandle)
      ∧ (∀ k : Fin 16, s.registered k = true → valid.getLsbD k.val = true)
      ∧ (c = s.lastCause ∨ c = .errQOvf ∨ c = .errTempRange) := by
    intro fs hl hf
    by_cases hq : s.queue.length + fs.length ≤ s.cfg.params.queueDepth
    · exact ⟨fs, [], s.flags, s.lastCause, s.visValid, s.visHandle, by rw [enqueue_fits s fs hq]; simp, hl, hf, .inr hq,
        fun _ => ⟨rfl, rfl⟩, fun _ h => h, .inl rfl⟩
    · exact ⟨[], [], { s.flags with qOvf := true }, .errQOvf, s.visValid, s.visHandle, by rw [enqueue_full s fs (by omega)]; simp, by simp, by simp, .inl rfl,
        fun _ => ⟨rfl, rfl⟩, fun _ h => h, .inr (.inl rfl)⟩
  cases i with
  | poll => exact absurd rfl hi
  | nop => exact ⟨[], [], s.flags, s.lastCause, s.visValid, s.visHandle, by simp [exec, execNop], by simp, by simp, .inl rfl, fun _ => ⟨rfl, rfl⟩, fun _ h => h, .inl rfl⟩
  | register k h =>
    refine ⟨[], [], s.flags, s.lastCause, _, _, by simp [exec, execRegister, State.withVisitor]; exact ⟨rfl, rfl⟩, by simp, by simp, .inl rfl,
      fun h' => absurd rfl (h' k h), fun j hj => ?_, .inl rfl⟩
    rw [BitVec.getLsbD_or, show s.visValid.getLsbD j.val = true from hj, Bool.true_or]
  | commLoss =>
    have hev : ∃ evs : List Event, s.lossEvents = evs.map .ev := by
      rw [State.lossEvents]
      generalize List.finRange 16 = l
      induction l with
      | nil => exact ⟨[], rfl⟩
      | cons k l ih =>
        obtain ⟨evs, he⟩ := ih
        cases h : s.registered k
        · exact ⟨evs, by simp [h, he]⟩
        · exact ⟨.error k (s.handleOf k) :: evs, by simp [h, he]⟩
    obtain ⟨evs, he⟩ := hev
    exact ⟨[], evs, s.flags, s.lastCause, s.visValid, s.visHandle, by simp [exec, execCommLoss, State.emit, he], by simp, by simp, .inl rfl, fun _ => ⟨rfl, rfl⟩, fun _ h => h, .inl rfl⟩
  | clrerr => exact ⟨[], [], s.flags.clear, s.lastCause, s.visValid, s.visHandle, by simp [exec, execClrerr, State.withFlags], by simp, by simp, .inl rfl, fun _ => ⟨rfl, rfl⟩, fun _ h => h, .inl rfl⟩
  | turnOn => exact enq _ (by simp) (by simp [IsCommandFrame])
  | turnOff => exact enq _ (by simp) (by simp [IsCommandFrame])
  | hotButton => exact enq _ (by simp) (by simp [IsCommandFrame])
  | recircOn => exact enq _ (by simp) (by simp [IsCommandFrame])
  | recircOff => exact enq _ (by simp) (by simp [IsCommandFrame])
  | setTemp centi =>
    rw [exec, execSetTemp, State.setTemp]
    split
    · exact ⟨[], [], s.flags.raiseArgErr, .errTempRange, s.visValid, s.visHandle, by simp [State.recordError, State.withFlags, State.withCause], by simp, by simp, .inl rfl,
        fun _ => ⟨rfl, rfl⟩, fun _ h => h, .inr (.inr rfl)⟩
    · refine enq _ (by simp) ?_
      intro g hg
      rw [List.mem_singleton] at hg
      exact .inr ⟨_, hg⟩

end Sys2Proof.Machine
end

