-- ==== Sys2Proof/Laws/Framer.lean ====
section
/-! SUPPORT. The framer: what each part of POLL does in each of its cases, and what one POLL can do (`poll_cases`). -/

namespace Sys2Proof.Machine

/-! ### The payload buffer and the header -/
theorem writeBody_getElem (old : Vector Byte 128) (bytes : List Byte) (i : Nat) (hi : i < 128) :
    (writeBody old bytes)[i] = bytes[i]?.getD old[i] := by
  simp [writeBody]

theorem writeBody_take (old : Vector Byte 128) (bytes : List Byte) (h : bytes.length ≤ 128) :
    (writeBody old bytes).toList.take bytes.length = bytes := by
  apply List.ext_getElem
  · simp [h]
  · intro i h1 h2
    simp [writeBody, h2]

theorem writeBody_take_le (old : Vector Byte 128) (bytes : List Byte) (n : Nat) (hn : n ≤ bytes.length) (h : bytes.length ≤ 128) :
    (writeBody old bytes).toList.take n = bytes.take n := by
  conv_rhs => rw [← writeBody_take old bytes h]
  rw [List.take_take, Nat.min_eq_left hn]

theorem byteAt_writeBody (old : Vector Byte 128) (bytes : List Byte) (n : Nat) (hn : n < bytes.length) (h : bytes.length ≤ 128) :
    byteAt (writeBody old bytes).toList n = bytes[n] := by
  have : n < 128 := by omega
  simp [byteAt, writeBody, List.getD_eq_getElem?_getD, this, hn]

theorem headerOfBytes_headerBytes (h : Header) (rest : List Byte) :
    headerOfBytes ((headerBytes h ++ rest).take 6) = h := by
  simp [headerOfBytes, headerBytes, byteAt]

@[simp] theorem headerBytes_length (h : Header) : (headerBytes h).length = 6 := rfl

/-! ### The scan -/
theorem scanBytes_garbage (g rest : List Byte) (hg : ∀ b ∈ g, b ≠ Wire.marker) : scanBytes (g ++ rest) = scanBytes rest := by
  induction g with
  | nil => rfl
  | cons b g ih =>
    simp only [List.mem_cons, forall_eq_or_imp] at hg
    simp [scanBytes, hg.1, ih hg.2]

theorem scanBytes_marker (rest : List Byte) : scanBytes (Wire.marker :: rest) = Wire.marker :: rest := by
  simp [scanBytes]

theorem scanBytes_eq_nil_iff (bs : List Byte) : scanBytes bs = [] ↔ ∀ b ∈ bs, b ≠ Wire.marker := by
  induction bs with
  | nil => simp [scanBytes]
  | cons b bs ih => by_cases h : b = Wire.marker <;> simp [scanBytes, h, ih]

theorem scanBytes_cases (bs : List Byte) :
    scanBytes bs = [] ∨ ∃ g rest, bs = g ++ Wire.marker :: rest ∧ (∀ b ∈ g, b ≠ Wire.marker) ∧ scanBytes bs = Wire.marker :: rest := by
  induction bs with
  | nil => exact .inl rfl
  | cons b bs ih =>
    by_cases h : b = Wire.marker
    · exact .inr ⟨[], bs, by simp [h], by simp, by simp [scanBytes, h]⟩
    · obtain ih | ⟨g, rest, hb, hg, hs⟩ := ih
      · exact .inl (by simp [scanBytes, h, ih])
      · refine .inr ⟨b :: g, rest, by simp [hb], ?_, by simp [scanBytes, h, hs]⟩
        simpa [h] using hg

/-- The state that holds header `h` in HEADER_PARSED with `rest` unread. -/
theorem takeHeader_eq (s : State) (h : Header) (rest : List Byte) (hs : s.source = headerBytes h ++ rest) :
    s.takeHeader = ({ s with rxState := .headerParsed, hdr := h, source := rest } : State).checkLength := by
  have h1 : headerOfBytes (s.source.take Wire.hdrSize) = h := by rw [hs]; exact headerOfBytes_headerBytes h rest
  have h2 : s.source.drop Wire.hdrSize = rest := by rw [hs]; rfl
  simp only [State.takeHeader, h1, State.consume, State.withHdr_source, h2]
  rfl

theorem pollScan_of_initial (s : State) (h : s.rxState = .initial) : s.pollScan = s.scan := by
  simp [State.pollScan, h]

theorem scan_garbage (s : State) (g rest : List Byte) (hg : ∀ b ∈ g, b ≠ Wire.marker) (hs : s.source = g ++ Wire.marker :: rest) :
    s.scan = { s with rxState := .markerFound, source := Wire.marker :: rest } := by
  simp only [State.scan, hs, scanBytes_garbage _ _ hg, scanBytes_marker]
  rfl

theorem scan_none (s : State) (hs : ∀ b ∈ s.source, b ≠ Wire.marker) : s.scan = { s with source := [] } := by
  simp only [State.scan, (scanBytes_eq_nil_iff _).2 hs]
  rfl

theorem pollHeader_of_initial (s : State) (h : s.rxState = .initial) : s.pollHeader = s := by
  simp [State.pollHeader, h]

theorem pollHeader_of_headerParsed (s : State) (h : s.rxState = .headerParsed) : s.pollHeader = s := by
  simp [State.pollHeader, h]

theorem pollBody_of_initial (s : State) (h : s.rxState = .initial) : s.pollBody = s := by
  simp [State.pollBody, h]

theorem pollBody_of_markerFound (s : State) (h : s.rxState = .markerFound) : s.pollBody = s := by
  simp [State.pollBody, h]

theorem pollHeader_short (s : State) (h : s.rxState = .markerFound) (hl : s.source.length < 6) : s.pollHeader = s := by
  simp [State.pollHeader, h, State.avail, Wire.hdrSize, hl]

theorem pollHeader_take (s : State) (h : s.rxState = .markerFound) (hl : 6 ≤ s.source.length) : s.pollHeader = s.takeHeader := by
  simp [State.pollHeader, h, State.avail, Wire.hdrSize, Nat.not_lt.2 hl]

theorem pollBody_short (s : State) (h : s.rxState = .headerParsed) (hl : s.source.length < s.bodyLen + 1) : s.pollBody = s := by
  simp [State.pollBody, h, State.avail, hl]

theorem pollBody_take (s : State) (h : s.rxState = .headerParsed) (hl : s.bodyLen + 1 ≤ s.source.length) :
    s.pollBody = s.takeBody.completeFrame.withRx .initial := by
  simp [State.pollBody, h, State.avail, Nat.not_lt.2 hl]

/-- A POLL that finds a header takes it, checks its length and goes on to the body. -/
theorem poll_findsHeader (s : State) (h : Header) (rest : List Byte) (hf : s.FindsHeader h rest) :
    s.poll = ({ s with rxState := .headerParsed, hdr := h, source := rest } : State).checkLength.pollBody := by
  obtain ⟨hm, ⟨hr, g, hg, hs⟩ | ⟨hr, hs⟩⟩ := hf
  · have hb : headerBytes h ++ rest = Wire.marker :: ((headerBytes h).drop 1 ++ rest) := by rw [← hm]; rfl
    rw [State.poll, pollScan_of_initial s hr, scan_garbage s g _ hg (by rw [hs, hb]), pollHeader_take _ rfl (by simp),
      takeHeader_eq _ h rest (by rw [hb])]
  · have h1 : s.pollScan = s := by simp [State.pollScan, hr]
    rw [State.poll, h1, pollHeader_take s hr (by simp [hs]), takeHeader_eq s h rest hs]

theorem checkLength_ok (s : State) (h : s.bodyLen ≤ 121) : s.checkLength = s := by
  simp [State.checkLength, Wire.lenMax, Nat.not_lt.2 h]

theorem checkLength_reject (s : State) (h : 121 < s.bodyLen) :
    s.checkLength = { s with
        rxState := .initial, lastCause := .errLen
        flags := { s.flags with lenErr := true }
        counters := { s.counters with lenErr := s.counters.lenErr + 1#16 } } := by
  rw [State.checkLength, if_pos (show s.bodyLen > Wire.lenMax from h)]
  rfl

theorem takeBody_eq (s : State) (body : List Byte) (cs : Byte) (rest : List Byte) (hl : body.length = s.bodyLen)
    (hs : s.source = body ++ cs :: rest) :
    s.takeBody = { s with body := writeBody s.body (body ++ [cs]), source := rest } := by
  have h1 : s.source.take (s.bodyLen + 1) = body ++ [cs] := by
    rw [hs, ← hl]; simp [List.take_append]
  have h2 : s.source.drop (s.bodyLen + 1) = rest := by
    rw [hs, ← hl]; simp [List.drop_append]
  simp only [State.takeBody, State.consume, State.withBody, State.withSource, h1]
  rw [← h2]

/-! ### The framer's part of a frame completion -/
section
variable (s : State) (h : Header) (body : List Byte) (cs : Byte) (rest : List Byte)

@[simp] theorem State.afterFrame_cfg : (s.afterFrame h body cs rest).cfg = s.cfg := rfl
@[simp] theorem State.afterFrame_rxState : (s.afterFrame h body cs rest).rxState = .initial := rfl
@[simp] theorem State.afterFrame_hdr : (s.afterFrame h body cs rest).hdr = h := rfl
@[simp] theorem State.afterFrame_body : (s.afterFrame h body cs rest).body = writeBody s.body (body ++ [cs]) := rfl
@[simp] theorem State.afterFrame_otherPresent : (s.afterFrame h body cs rest).otherPresent = s.otherPresent := rfl
@[simp] theorem State.afterFrame_hbCnt : (s.afterFrame h body cs rest).hbCnt = s.hbCnt := rfl
@[simp] theorem State.afterFrame_queue : (s.afterFrame h body cs rest).queue = s.queue := rfl
@[simp] theorem State.afterFrame_visValid : (s.afterFrame h body cs rest).visValid = s.visValid := rfl
@[simp] theorem State.afterFrame_visHandle : (s.afterFrame h body cs rest).visHandle = s.visHandle := rfl
@[simp] theorem State.afterFrame_flags : (s.afterFrame h body cs rest).flags = s.flags := rfl
@[simp] theorem State.afterFrame_lastCause : (s.afterFrame h body cs rest).lastCause = s.lastCause := rfl
@[simp] theorem State.afterFrame_counters : (s.afterFrame h body cs rest).counters = s.counters := rfl
@[simp] theorem State.afterFrame_source : (s.afterFrame h body cs rest).source = rest := rfl
@[simp] theorem State.afterFrame_history : (s.afterFrame h body cs rest).history = s.history := rfl
@[simp] theorem State.afterFrame_schedule : (s.afterFrame h body cs rest).schedule = s.schedule := rfl
@[simp] theorem State.afterFrame_reads : (s.afterFrame h body cs rest).reads = s.reads := rfl

end

theorem poll_receives (s : State) (h : Header) (body : List Byte) (cs : Byte) (rest : List Byte)
    (hr : s.Receives h body cs rest) :
    s.poll = ((s.afterFrame h body cs rest).withRx .headerParsed).completeFrame.withRx .initial := by
  obtain ⟨hl, hle, hf | ⟨hx, hh, hs⟩⟩ := hr
  · rw [poll_findsHeader s h _ hf, checkLength_ok _ (by simp only [State.bodyLen]; rw [← hl]; exact hle),
      pollBody_take _ rfl (by simp [State.bodyLen, hl]), takeBody_eq _ body cs rest (by simp [State.bodyLen, hl]) rfl]
    rfl
  · have h1 : s.pollScan = s := by simp [State.pollScan, hx]
    rw [State.poll, h1, pollHeader_of_headerParsed s hx, pollBody_take s hx (by simp [State.bodyLen, hs, hh, hl]),
      takeBody_eq s body cs rest (by simp [State.bodyLen, hh, hl]) hs]
    have he : ({ s with body := writeBody s.body (body ++ [cs]), source := rest } : State)
        = (s.afterFrame h body cs rest).withRx .headerParsed := by rw [← hh, ← hx]; rfl
    rw [he]

/-! ### The frame held -/
section Held
variable {s : State} {h : Header} {body : List Byte} {cs : Byte} {rest : List Byte} {r : RxState}

theorem afterFrame_bodyLen (hl : body.length = h.length.toNat) :
    ((s.afterFrame h body cs rest).withRx r).bodyLen = body.length := hl.symm

theorem afterFrame_frame (hl : body.length = h.length.toNat) (hle : body.length ≤ 121) :
    ((s.afterFrame h body cs rest).withRx r).frame = headerBytes h ++ (body ++ [cs]) := by
  have := writeBody_take_le s.body (body ++ [cs]) (body.length + 1) (by simp) (by simp; omega)
  rw [List.take_of_length_le (i := body.length + 1) (l := body ++ [cs]) (by simp)] at this
  rw [State.frame, afterFrame_bodyLen hl]
  simp only [State.withRx_hdr, State.withRx_body, State.afterFrame_hdr, State.afterFrame_body]
  rw [this]

theorem afterFrame_bodyBytes (hl : body.length = h.length.toNat) (hle : body.length ≤ 121) :
    ((s.afterFrame h body cs rest).withRx r).bodyBytes = body := by
  have := writeBody_take_le s.body (body ++ [cs]) body.length (by simp) (by simp; omega)
  rw [List.take_left'  rfl] at this
  rw [State.bodyBytes, afterFrame_bodyLen hl]
  simp only [State.withRx_body, State.afterFrame_body]
  rw [this]

theorem afterFrame_checksum (hl : body.length = h.length.toNat) (hle : body.length ≤ 121) :
    ((s.afterFrame h body cs rest).withRx r).frameChecksum = cs := by
  rw [State.frameChecksum, afterFrame_bodyLen hl]
  simp only [State.withRx_body, State.afterFrame_body]
  rw [byteAt_writeBody s.body (body ++ [cs]) body.length (by simp) (by simp; omega)]
  simp

theorem afterFrame_checksumValid (hl : body.length = h.length.toNat) (hle : body.length ≤ 121) :
    ((s.afterFrame h body cs rest).withRx r).checksumValid = true
      ↔ ChecksumMatches s.cfg.params h body cs := by
  rw [State.checksumValid, afterFrame_frame hl hle, afterFrame_checksum hl hle, afterFrame_bodyLen hl, beq_iff_eq,
    ChecksumMatches]
  rw [checksum_take (bs := headerBytes h ++ (body ++ [cs])) (cs := headerBytes h ++ body)]
  · rfl
  · rw [← List.append_assoc, List.take_left' (by simp), List.take_of_length_le (by simp)]

end Held

theorem presenceShape_iff (s : State) : s.isPresenceShape = true ↔ PresenceShape s.cfg.params s.hdr := by
  have hp := (rom_length s.cfg .presence).1
  rw [State.isPresenceShape, beq_iff_eq, PresenceShape]
  simp only [romOf] at hp
  generalize s.cfg.params.romPresence = q at *
  match q, hp with
  | a :: b :: c :: d :: e :: f :: g :: l, _ =>
    simp only [headerBytes, byteAt, List.drop, List.take, List.cons.injEq]
    constructor
    · rintro ⟨h1, h2, h3, h4, h5, -⟩ i hi hi'
      have : i = 1 ∨ i = 2 ∨ i = 3 ∨ i = 4 ∨ i = 5 := by omega
      rcases this with rfl | rfl | rfl | rfl | rfl <;> simpa
    · intro h
      exact ⟨h 1 (by omega) (by omega), h 2 (by omega) (by omega), h 3 (by omega) (by omega), h 4 (by omega) (by omega),
        h 5 (by omega) (by omega), trivial⟩

/-! ### One POLL -/

theorem exec_poll (s : State) : exec .poll s = .next s.poll := rfl

theorem poll_noMarker (s : State) (hr : s.rxState = .initial) (hs : ∀ b ∈ s.source, b ≠ Wire.marker) :
    s.poll = { s with source := [] } := by
  rw [State.poll, pollScan_of_initial s hr, scan_none s hs, pollHeader_of_initial, pollBody_of_initial] <;> exact hr

theorem poll_scanned (s : State) (g rest : List Byte) (hr : s.rxState = .initial) (hg : ∀ b ∈ g, b ≠ Wire.marker)
    (hs : s.source = g ++ Wire.marker :: rest) :
    s.poll = ({ s with rxState := .markerFound, source := Wire.marker :: rest } : State).poll := by
  rw [State.poll, pollScan_of_initial s hr, scan_garbage s g rest hg hs]
  rfl

theorem poll_marker_short (s : State) (hr : s.rxState = .markerFound) (hl : s.source.length < 6) : s.poll = s := by
  have h1 : s.pollScan = s := by simp [State.pollScan, hr]
  rw [State.poll, h1, pollHeader_short s hr hl, pollBody_of_markerFound s hr]

theorem poll_header_short (s : State) (hr : s.rxState = .headerParsed) (hl : s.source.length < s.bodyLen + 1) :
    s.poll = s := by
  have h1 : s.pollScan = s := by simp [State.pollScan, hr]
  rw [State.poll, h1, pollHeader_of_headerParsed s hr, pollBody_short s hr hl]

theorem poll_findsHeader_short (s : State) (h : Header) (rest : List Byte) (hf : s.FindsHeader h rest)
    (hl : h.length.toNat ≤ 121) (hr : rest.length < h.length.toNat + 1) :
    s.poll = { s with rxState := .headerParsed, hdr := h, source := rest } := by
  rw [poll_findsHeader s h rest hf, checkLength_ok _ (by exact hl), pollBody_short _ rfl (by exact hr)]

theorem headerBytes_headerOfBytes (bs : List Byte) (h : 6 ≤ bs.length) :
    headerBytes (headerOfBytes (bs.take 6)) ++ bs.drop 6 = bs := by
  rcases bs with _ | ⟨a, _ | ⟨b, _ | ⟨c, _ | ⟨d, _ | ⟨e, _ | ⟨f, rest⟩⟩⟩⟩⟩⟩ <;> first | rfl | simp at h

/-- What one POLL can do (R110, R111): suspend with the framer's own registers moved on, reject a header, or complete a frame. -/
theorem poll_cases (s : State) :
    (∃ r h b, s.poll = { s with rxState := r, hdr := h, source := b })
    ∨ (∃ h b, s.poll = { s with
        rxState := .initial, hdr := h, source := b, lastCause := .errLen
        flags := { s.flags with lenErr := true }
        counters := { s.counters with lenErr := s.counters.lenErr + 1#16 } })
    ∨ (∃ h body b, s.poll = ({ s with rxState := .headerParsed, hdr := h, body := body, source := b } : State).completeFrame.withRx .initial) := by
  have hp : ∀ t : State, t.rxState = .headerParsed →
      (t.poll = t) ∨ ∃ body b, t.poll = ({ t with body := body, source := b } : State).completeFrame.withRx .initial := by
    intro t ht
    have h1 : t.pollScan = t := by simp [State.pollScan, ht]
    rw [State.poll, h1, pollHeader_of_headerParsed t ht]
    by_cases hl : t.source.length < t.bodyLen + 1
    · exact .inl (pollBody_short t ht hl)
    · refine .inr ⟨writeBody t.body (t.source.take (t.bodyLen + 1)), t.source.drop (t.bodyLen + 1), ?_⟩
      rw [pollBody_take t ht (by omega), State.takeBody, State.consume, State.withBody_source]
      simp only [State.withBody, State.withSource]
  have hm : ∀ t : State, t.rxState = .markerFound →
      t.poll = t ∨ ∃ h b, t.source = headerBytes h ++ b ∧ t.poll = ({ t with rxState := .headerParsed, hdr := h, source := b } : State).checkLength.pollBody := by
    intro t ht
    by_cases hl : t.source.length < 6
    · exact .inl (poll_marker_short t ht hl)
    · right
      have hs := headerBytes_headerOfBytes t.source (by omega)
      refine ⟨_, _, hs.symm, ?_⟩
      have h1 : t.pollScan = t := by simp [State.pollScan, ht]
      rw [State.poll, h1, pollHeader_take t ht (by omega), takeHeader_eq t _ _ hs.symm]
  have hm' : ∀ t : State, t.rxState = .markerFound →
     (t.poll = t) ∨
     (∃ h b, t.poll = { t with rxState := .headerParsed, hdr := h, source := b }) ∨
     (∃ h b, t.poll = { t with
        rxState := .initial, hdr := h, source := b, lastCause := .errLen
        flags := { t.flags with lenErr := true }
        counters := { t.counters with lenErr := t.counters.lenErr + 1#16 } })
    ∨ (∃ h body b, t.poll = ({ t with rxState := .headerParsed, hdr := h, body := body, source := b } : State).completeFrame.withRx .initial) := by
    intro t ht
    obtain h | ⟨h, b, -, he⟩ := hm t ht
    · exact .inl h
    · right
      rw [he]
      by_cases hl : h.length.toNat ≤ 121
      · rw [checkLength_ok _ (by exact hl)]
        have h2 := hp { t with rxState := .headerParsed, hdr := h, source := b } rfl
        rw [State.poll, pollHeader_of_headerParsed _ rfl] at h2
        obtain h2 | ⟨body, b', h2⟩ := h2
        · exact .inl ⟨h, b, h2⟩
        · exact .inr (.inr ⟨h, body, b', h2⟩)
      · rw [checkLength_reject _ (by exact Nat.lt_of_not_le hl)]
        exact .inr (.inl ⟨h, b, pollBody_of_initial _ rfl⟩)
  cases hr : s.rxState with
  | initial =>
    obtain h | ⟨g, rest, hs, hg, -⟩ := scanBytes_cases s.source
    · rw [scanBytes_eq_nil_iff] at h
      exact .inl ⟨.initial, s.hdr, [], by rw [poll_noMarker s hr h, ← hr]⟩
    · rw [poll_scanned s g rest hr hg hs]
      obtain h | ⟨h, b, h'⟩ | ⟨h, b, h'⟩ | ⟨h, body, b, h'⟩ := hm' { s with rxState := .markerFound, source := Wire.marker :: rest } rfl
      · exact .inl ⟨_, _, _, h⟩
      · exact .inl ⟨_, _, _, h'⟩
      · exact .inr (.inl ⟨_, _, h'⟩)
      · exact .inr (.inr ⟨_, _, _, h'⟩)
  | markerFound =>
    obtain h | ⟨h, b, h'⟩ | ⟨h, b, h'⟩ | ⟨h, body, b, h'⟩ := hm' s hr
    · exact .inl ⟨s.rxState, s.hdr, s.source, h⟩
    · exact .inl ⟨_, _, _, h'⟩
    · exact .inr (.inl ⟨_, _, h'⟩)
    · exact .inr (.inr ⟨_, _, _, h'⟩)
  | headerParsed =>
    obtain h | ⟨body, b, h⟩ := hp s hr
    · exact .inl ⟨s.rxState, s.hdr, s.source, h⟩
    · exact .inr (.inr ⟨s.hdr, body, b, by rw [h, ← hr]⟩)

/-- a header is taken in MARKER_FOUND whatever its bytes. -/
theorem poll_markerFound (s : State) (h : Header) (rest : List Byte) (hr : s.rxState = .markerFound) (hs : s.source = headerBytes h ++ rest) :
    s.poll = ({ s with rxState := .headerParsed, hdr := h, source := rest } : State).checkLength.pollBody := by
  have h1 : s.pollScan = s := by simp [State.pollScan, hr]
  rw [State.poll, h1, pollHeader_take s hr (by simp [hs]), takeHeader_eq s h rest hs]

theorem poll_headerParsed (s : State) (hr : s.rxState = .headerParsed) : s.poll = s.pollBody := by
  have h1 : s.pollScan = s := by simp [State.pollScan, hr]
  rw [State.poll, h1, pollHeader_of_headerParsed s hr]

theorem pollBody_initial (s : State) (hr : s.rxState = .headerParsed) (hl : s.bodyLen + 1 ≤ s.source.length) :
    s.pollBody.rxState = .initial := by rw [pollBody_take s hr hl]; rfl

/-- Between POLLs the framer is where R113 to R117 say it can be, if it was before. -/
theorem poll_framer (s : State) (hm : s.rxState = .markerFound → s.source.head? = some Wire.marker)
    (hh : s.rxState = .headerParsed → s.hdr.marker = Wire.marker ∧ s.bodyLen ≤ Wire.lenMax) :
    (s.poll.rxState = .markerFound → s.poll.source.head? = some Wire.marker)
    ∧ (s.poll.rxState = .headerParsed → s.poll.hdr.marker = Wire.marker ∧ s.poll.bodyLen ≤ Wire.lenMax) := by
  have ini : ∀ t : State, t.rxState = .initial → (t.rxState = .markerFound → t.source.head? = some Wire.marker)
      ∧ (t.rxState = .headerParsed → t.hdr.marker = Wire.marker ∧ t.bodyLen ≤ Wire.lenMax) := by
    intro t ht
    rw [ht]
    exact ⟨fun h => (by cases h), fun h => (by cases h)⟩
  have mk : ∀ (t : State) rest, t.rxState = .markerFound → t.source = Wire.marker :: rest →
      (t.poll.rxState = .markerFound → t.poll.source.head? = some Wire.marker)
      ∧ (t.poll.rxState = .headerParsed → t.poll.hdr.marker = Wire.marker ∧ t.poll.bodyLen ≤ Wire.lenMax) := by
    intro t rest ht hs
    by_cases hl : t.source.length < 6
    · rw [poll_marker_short t ht hl, ht, hs]
      exact ⟨fun _ => rfl, fun h => by cases h⟩
    have hsp := headerBytes_headerOfBytes t.source (by omega)
    generalize hhd : headerOfBytes (t.source.take 6) = h at hsp
    generalize t.source.drop 6 = b at hsp
    have hmk : h.marker = Wire.marker := by rw [← hhd, hs]; rfl
    have hf : t.FindsHeader h b := ⟨hmk, .inr ⟨ht, hsp.symm⟩⟩
    by_cases hlen : h.length.toNat ≤ 121
    · by_cases hb : b.length < h.length.toNat + 1
      · rw [poll_findsHeader_short t h b hf hlen hb]
        exact ⟨fun h => (by cases h), fun _ => ⟨hmk, hlen⟩⟩
      · apply ini
        rw [poll_findsHeader t h b hf, checkLength_ok _ (by exact hlen), pollBody_take _ rfl (by exact Nat.not_lt.1 hb)]
        rfl
    · apply ini
      rw [poll_findsHeader t h b hf, checkLength_reject _ (by exact Nat.lt_of_not_le hlen), pollBody_of_initial _ rfl]
  cases hr : s.rxState with
  | initial =>
    obtain h | ⟨g, rest, hs, hg, -⟩ := scanBytes_cases s.source
    · rw [scanBytes_eq_nil_iff] at h
      exact ini _ (by rw [poll_noMarker s hr h]; exact hr)
    · rw [poll_scanned s g rest hr hg hs]
      exact mk _ rest rfl rfl
  | markerFound =>
    have := hm hr
    rcases hs : s.source with _ | ⟨b, rest⟩
    · simp [hs] at this
    · simp [hs] at this; subst this
      exact mk s rest hr hs
  | headerParsed =>
    by_cases hl : s.source.length < s.bodyLen + 1
    · rw [poll_header_short s hr hl, hr]
      exact ⟨fun h => (by cases h), fun _ => hh hr⟩
    · apply ini
      have h1 : s.pollScan = s := by simp [State.pollScan, hr]
      rw [State.poll, h1, pollHeader_of_headerParsed s hr, pollBody_take s hr (by omega)]
      rfl

end Sys2Proof.Machine
end

