-- ==== Sys2Proof/Laws/Decoder.lean ====
section
/-! SUPPORT. Records, dispatch, the status decode and classification: everything each can do. -/

namespace Sys2Proof.Machine

/-! ### Records -/

theorem extractWater_record (m : WaterMap) (body : List Byte) : IsWaterRecord m body (extractWater m body) := by
  constructor <;> rfl

theorem extractGas_record (m : GasMap) (body : List Byte) : IsGasRecord m body (extractGas m body) := by
  constructor <;> rfl

/-! ### Dispatch -/

theorem dispatch_outOfRange (s : State) (d : Decoded) (h : 15 < slotOf s.cfg.params s.hdr.src) :
    s.dispatch d = s.withCause .rxSrcRange := by
  rw [State.dispatch, dif_neg (by omega)]

theorem dispatch_noVisitor (s : State) (d : Decoded) (k : Fin 16) (hk : k.val = slotOf s.cfg.params s.hdr.src)
    (h : s.registered k = false) : s.dispatch d = s.withCause .rxNoVisitor := by
  obtain ⟨k, hk'⟩ := k
  subst hk
  rw [State.dispatch, dif_pos hk']
  simp [h]

theorem dispatch_visitor (s : State) (d : Decoded) (k : Fin 16) (hk : k.val = slotOf s.cfg.params s.hdr.src)
    (h : s.registered k = true) :
    s.dispatch d = (s.emit [.ev (decodedEvent k (s.handleOf k) s.hdr.src d)]).withCause (decodedCause d) := by
  obtain ⟨k, hk'⟩ := k
  subst hk
  rw [State.dispatch, dif_pos hk']
  simp [h]

/-- Everything dispatch can do (R204, R210). -/
theorem dispatch_cases (s : State) (d : Decoded) :
    (15 < slotOf s.cfg.params s.hdr.src ∧ s.dispatch d = s.withCause .rxSrcRange)
    ∨ ∃ k : Fin 16, k.val = slotOf s.cfg.params s.hdr.src ∧
      ((s.registered k = false ∧ s.dispatch d = s.withCause .rxNoVisitor)
      ∨ (s.registered k = true
        ∧ s.dispatch d = (s.emit [.ev (decodedEvent k (s.handleOf k) s.hdr.src d)]).withCause (decodedCause d))) := by
  by_cases h : slotOf s.cfg.params s.hdr.src < 16
  · refine .inr ⟨⟨_, h⟩, rfl, ?_⟩
    cases hr : s.registered ⟨_, h⟩
    · exact .inl ⟨rfl, dispatch_noVisitor s d _ rfl hr⟩
    · exact .inr ⟨rfl, dispatch_visitor s d _ rfl hr⟩
  · exact .inl ⟨by omega, dispatch_outOfRange s d (by omega)⟩

/-- The events a frame's decode may emit: one, to the visitor registered in the slot of the frame's source. -/
def State.OwnEvents (s : State) (evs : List Event) : Prop :=
  evs.length ≤ 1 ∧ ∀ e ∈ evs, ∃ k : Fin 16, k.val = slotOf s.cfg.params s.hdr.src ∧ s.registered k = true
    ∧ ((∃ r, e = .water k (s.handleOf k) s.hdr.src r) ∨ (∃ r, e = .gas k (s.handleOf k) s.hdr.src r))

theorem dispatch_effect (s : State) (d : Decoded) :
    ∃ evs c, s.dispatch d = (s.emit (evs.map .ev)).withCause c ∧ s.OwnEvents evs ∧ c ≠ .rxPresence := by
  obtain ⟨-, h⟩ | ⟨k, hk, ⟨-, h⟩ | ⟨hr, h⟩⟩ := dispatch_cases s d
  · exact ⟨[], .rxSrcRange, by simpa [State.emit] using h, by simp [State.OwnEvents], by simp⟩
  · exact ⟨[], .rxNoVisitor, by simpa [State.emit] using h, by simp [State.OwnEvents], by simp⟩
  · refine ⟨[decodedEvent k (s.handleOf k) s.hdr.src d], decodedCause d, h, ⟨by simp, ?_⟩, by cases d <;> simp [decodedCause]⟩
    intro e he
    rw [List.mem_singleton] at he
    subst he
    refine ⟨k, hk, hr, ?_⟩
    cases d with
    | water r => exact .inl ⟨r, rfl⟩
    | gas r => exact .inr ⟨r, rfl⟩

theorem withCause_eq_emit (s : State) (c : Cause) : s.withCause c = (s.emit (([] : List Event).map .ev)).withCause c := by
  simp [State.emit]

theorem decodeStatus_effect (s : State) :
    ∃ evs c, s.decodeStatus = (s.emit (evs.map .ev)).withCause c ∧ s.OwnEvents evs ∧ c ≠ .rxPresence := by
  have nil : s.OwnEvents [] := by simp [State.OwnEvents]
  rw [State.decodeStatus, State.decodeWater, State.decodeGas]
  split_ifs
  · exact ⟨[], _, withCause_eq_emit s _, nil, by simp⟩
  · exact dispatch_effect s _
  · exact ⟨[], _, withCause_eq_emit s _, nil, by simp⟩
  · exact dispatch_effect s _
  · exact ⟨[], _, withCause_eq_emit s _, nil, by simp⟩

/-! ### Classification -/

theorem frameClass_control_iff (c : Config) (h : Header) :
    frameClass c.params h = .control ↔ h.dir = c.params.dirControl ∧ h.src = c.params.ctrlSrc := by
  have := config_directions c
  rw [frameClass]
  split_ifs with h1 h2 h3 <;> simp_all

theorem frameClass_foreign_iff (c : Config) (h : Header) :
    frameClass c.params h = .foreignControl ↔ h.dir = c.params.dirControl ∧ h.src ≠ c.params.ctrlSrc := by
  have := config_directions c
  rw [frameClass]
  split_ifs with h1 h2 h3 <;> simp_all

theorem frameClass_status_iff (p : Params) (h : Header) : frameClass p h = .status ↔ h.dir = p.dirStatus := by
  rw [frameClass]
  split_ifs with h1 h2 h3 <;> simp_all

theorem frameClass_other_iff (p : Params) (h : Header) :
    frameClass p h = .otherDir ↔ h.dir ≠ p.dirStatus ∧ h.dir ≠ p.dirControl := by
  rw [frameClass]
  split_ifs with h1 h2 h3 <;> simp_all

/-- Everything classification can do (R140): a foreign control frame, a mismatch, or one of the three accepted kinds, counted
before it is handled. -/
theorem classify_cases (s : State) :
    (frameClass s.cfg.params s.hdr = .foreignControl ∧ s.classify = (.notAccepted, s.withCause .rxForeignCtrl))
    ∨ (frameClass s.cfg.params s.hdr ≠ .foreignControl ∧ s.checksumValid = false ∧ s.classify = (.notAccepted, s.csumMismatch))
    ∨ (s.checksumValid = true ∧
      ((frameClass s.cfg.params s.hdr = .status
          ∧ s.classify = (.accepted, (s.withCounters s.counters.bumpRxOk).decodeStatus))
      ∨ (frameClass s.cfg.params s.hdr = .control ∧ s.classify = (s.withCounters s.counters.bumpRxOk).presence)
      ∨ (frameClass s.cfg.params s.hdr = .otherDir
          ∧ s.classify = (.accepted, (s.withCounters s.counters.bumpRxOk).withCause .rxUnknownDir)))) := by
  rw [State.classify]
  cases hc : frameClass s.cfg.params s.hdr <;> cases hv : s.checksumValid <;> simp [State.validated, hv]

/-- What an accepted frame's classification does, whatever its kind: one accepted frame counted, its own events emitted, an
outcome code written, and `other_present` set exactly by a foreign presence frame. -/
theorem classify_accepted (s : State) (hc : frameClass s.cfg.params s.hdr ≠ .foreignControl) (hv : s.checksumValid = true) :
    ∃ evs c o, s.classify.2 = ((((s.withCounters s.counters.bumpRxOk).emit (evs.map .ev)).withOtherPresent o).withCause c)
      ∧ s.OwnEvents evs
      ∧ ((IsForeignPresence s.cfg.params s.hdr ∧ s.classify.1 = .foreignPresence ∧ o = true ∧ c = .rxPresence ∧ evs = [])
        ∨ (¬ IsForeignPresence s.cfg.params s.hdr ∧ s.classify.1 = .accepted ∧ o = s.otherPresent ∧ c ≠ .rxPresence)) := by
  have nil : s.OwnEvents [] := by simp [State.OwnEvents]
  obtain ⟨h, -⟩ | ⟨-, h, -⟩ | ⟨-, ⟨hk, h⟩ | ⟨hk, h⟩ | ⟨hk, h⟩⟩ := classify_cases s
  · exact absurd h hc
  · simp [hv] at h
  · obtain ⟨evs, c, he, ho, hc⟩ := decodeStatus_effect (s.withCounters s.counters.bumpRxOk)
    rw [h]
    refine ⟨evs, c, s.otherPresent, he, ho, .inr ⟨fun hp => ?_, rfl, rfl, hc⟩⟩
    rw [hp.1] at hk
    cases hk
  · rw [h, State.presence]
    have hi := presenceShape_iff (s.withCounters s.counters.bumpRxOk)
    split
    · next hp => exact ⟨[], .rxPresence, true, by simp [State.emit]; rfl, nil, .inl ⟨⟨hk, hi.1 hp⟩, rfl, rfl, rfl, rfl⟩⟩
    · next hp =>
      exact ⟨[], .rxControl, s.otherPresent, by simp [State.emit]; rfl, nil,
        .inr ⟨fun hq => hp (hi.2 hq.2), rfl, rfl, by simp⟩⟩
  · rw [h]
    refine ⟨[], .rxUnknownDir, s.otherPresent, by simp [State.emit]; rfl, nil, .inr ⟨fun hp => ?_, rfl, rfl, by simp⟩⟩
    rw [hp.1] at hk
    cases hk

theorem decodeStatus_water (s : State) (h1 : s.hdr.dst = s.cfg.params.dstWater)
    (h2 : waterMinLen s.cfg.params.waterMap ≤ s.bodyLen) :
    s.decodeStatus = s.dispatch (.water (extractWater s.cfg.params.waterMap s.bodyBytes)) := by
  rw [State.decodeStatus, if_pos h1, State.decodeWater, if_neg (Nat.not_lt.2 h2)]

theorem decodeStatus_gas (s : State) (h1 : s.hdr.dst = s.cfg.params.dstGas)
    (h2 : gasMinLen s.cfg.params.gasMap ≤ s.bodyLen) :
    s.decodeStatus = s.dispatch (.gas (extractGas s.cfg.params.gasMap s.bodyBytes)) := by
  rw [State.decodeStatus, if_neg (fun h => config_destinations s.cfg (h.symm.trans h1)), if_pos h1, State.decodeGas,
    if_neg (Nat.not_lt.2 h2)]

theorem decodeStatus_short (s : State)
    (h : (s.hdr.dst = s.cfg.params.dstWater ∧ s.bodyLen < waterMinLen s.cfg.params.waterMap)
      ∨ (s.hdr.dst = s.cfg.params.dstGas ∧ s.bodyLen < gasMinLen s.cfg.params.gasMap)) :
    s.decodeStatus = s.withCause .rxShort := by
  obtain ⟨h1, h2⟩ | ⟨h1, h2⟩ := h
  · rw [State.decodeStatus, if_pos h1, State.decodeWater, if_pos h2]
  · rw [State.decodeStatus, if_neg (fun h => config_destinations s.cfg (h.symm.trans h1)), if_pos h1, State.decodeGas, if_pos h2]

theorem decodeStatus_unknown (s : State) (h1 : s.hdr.dst ≠ s.cfg.params.dstWater) (h2 : s.hdr.dst ≠ s.cfg.params.dstGas) :
    s.decodeStatus = s.withCause .rxUnknownDst := by
  rw [State.decodeStatus, if_neg h1, if_neg h2]

@[simp] theorem State.withCounters_bodyBytes (s : State) (c : Counters) : (s.withCounters c).bodyBytes = s.bodyBytes := rfl

@[simp] theorem State.withCounters_bodyLen (s : State) (c : Counters) : (s.withCounters c).bodyLen = s.bodyLen := rfl

@[simp] theorem State.withCounters_registered (s : State) (c : Counters) (k : Fin 16) : (s.withCounters c).registered k = s.registered k := rfl

@[simp] theorem State.withCounters_handleOf (s : State) (c : Counters) (k : Fin 16) : (s.withCounters c).handleOf k = s.handleOf k := rfl

theorem classify_of_class {s : State} (hv : s.checksumValid = true) :
    (frameClass s.cfg.params s.hdr = .status → s.classify = (.accepted, (s.withCounters s.counters.bumpRxOk).decodeStatus))
    ∧ (frameClass s.cfg.params s.hdr = .control → s.classify = (s.withCounters s.counters.bumpRxOk).presence)
    ∧ (frameClass s.cfg.params s.hdr = .otherDir → s.classify = (.accepted, (s.withCounters s.counters.bumpRxOk).withCause .rxUnknownDir)) := by
  refine ⟨?_, ?_, ?_⟩ <;> intro h <;> rw [State.classify, h] <;> simp [State.validated, hv]

end Sys2Proof.Machine
end

