-- ==== Sys2Proof/Laws/Completion.lean ====
section
/-! SUPPORT. The completion of a frame, and with it everything one POLL can do to the state (`poll_outcome`, `poll_transmission`). -/

namespace Sys2Proof.Machine

/-- What an accepted frame's arbiter runs on: the frame counted, its events emitted, `other_present` and the outcome written. -/
def State.afterAccept (s : State) (evs : List Event) (o : Bool) (c : Cause) : State :=
  (((s.withCounters s.counters.bumpRxOk).emit (evs.map .ev)).withOtherPresent o).withCause c

/-- Everything the completion of a frame can do (R120, R140, R181). -/
theorem completeFrame_cases (s : State) :
    (frameClass s.cfg.params s.hdr = .foreignControl ∧ s.completeFrame = s.withCause .rxForeignCtrl)
    ∨ (frameClass s.cfg.params s.hdr ≠ .foreignControl ∧ s.checksumValid = false ∧ s.completeFrame = s.csumMismatch)
    ∨ (frameClass s.cfg.params s.hdr ≠ .foreignControl ∧ s.checksumValid = true ∧ ∃ evs c, s.OwnEvents evs ∧
        ((IsForeignPresence s.cfg.params s.hdr ∧ evs = [] ∧ c = .rxPresence
            ∧ s.completeFrame = (s.afterAccept evs true c).sendOne)
        ∨ (¬ IsForeignPresence s.cfg.params s.hdr ∧ c ≠ .rxPresence
            ∧ (s.otherPresent = true → s.completeFrame = s.afterAccept evs true c)
            ∧ (s.otherPresent = false → s.completeFrame = (s.afterAccept evs false c).heartbeat.sendOne)))) := by
  by_cases hc : frameClass s.cfg.params s.hdr = .foreignControl
  · left
    refine ⟨hc, ?_⟩
    simp [State.completeFrame, State.classify, hc, State.arbiter]
  right
  cases hv : s.checksumValid with
  | false =>
    left
    refine ⟨hc, rfl, ?_⟩
    rw [State.completeFrame, State.classify]
    cases h : frameClass s.cfg.params s.hdr <;> first | exact absurd h hc | simp [State.validated, hv, State.arbiter]
  | true =>
    right
    obtain ⟨evs, c, o, h2, hown, ⟨hp, h1, ho, hcc, he⟩ | ⟨hp, h1, ho, hcc⟩⟩ := classify_accepted s hc hv
    · refine ⟨hc, rfl, evs, c, hown, .inl ⟨hp, he, hcc, ?_⟩⟩
      rw [State.completeFrame, h1, h2, ho]
      simp [State.arbiter, State.afterAccept]
    · refine ⟨hc, rfl, evs, c, hown, .inr ⟨hp, hcc, fun h => ?_, fun h => ?_⟩⟩
      all_goals
        rw [State.completeFrame, h1, h2, ho, h]
        simp [State.arbiter, State.afterAccept]

/-- Everything an accepted frame at hand can do (R140, R141, R181, R182). -/
theorem poll_accepts {s : State} {h : Header} {body : List Byte} {cs : Byte} {rest : List Byte}
    (ha : s.Accepts h body cs rest) : ∃ evs c, (s.afterFrame h body cs rest).OwnEvents evs ∧
      ((IsForeignPresence s.cfg.params h ∧ evs = [] ∧ c = .rxPresence
          ∧ s.poll = ((s.afterFrame h body cs rest).afterAccept evs true c).sendOne)
      ∨ (¬ IsForeignPresence s.cfg.params h ∧ c ≠ .rxPresence
          ∧ (s.otherPresent = true → s.poll = (s.afterFrame h body cs rest).afterAccept evs true c)
          ∧ (s.otherPresent = false → s.poll = ((s.afterFrame h body cs rest).afterAccept evs false c).heartbeat.sendOne))) := by
  obtain ⟨hr, hc, hm⟩ := ha
  rw [poll_receives s h body cs rest hr]
  rw [← afterFrame_checksumValid (s := s) (rest := rest) (r := .headerParsed) hr.1 hr.2.1] at hm
  obtain ⟨h1, -⟩ | ⟨-, h1, -⟩ | ⟨-, -, evs, c, ho, ⟨h1, h2, h3, he⟩ | ⟨h1, h2, h3, h4⟩⟩ :=
    completeFrame_cases ((s.afterFrame h body cs rest).withRx .headerParsed)
  · exact absurd h1 hc
  · rw [h1] at hm; cases hm
  · refine ⟨evs, c, ho, .inl ⟨h1, h2, h3, ?_⟩⟩
    rw [he, sendOne_withRx]; rfl
  · refine ⟨evs, c, ho, .inr ⟨h1, h2, fun h => ?_, fun h => ?_⟩⟩
    · rw [h3 h]; rfl
    · rw [h4 h, sendOne_withRx]; rfl

/-- The classification behind an accepted frame, spelled out for the outcome code and the history: `t` has them. -/
theorem poll_classified {s : State} {h : Header} {body : List Byte} {cs : Byte} {rest : List Byte}
    (hr : s.Receives h body cs rest) :
    ∃ txs : List Frame, s.poll.history = (((s.afterFrame h body cs rest).withRx .headerParsed).classify).2.history ++ txs.map .tx
      ∧ s.poll.lastCause = (((s.afterFrame h body cs rest).withRx .headerParsed).classify).2.lastCause
      ∧ s.poll.otherPresent = (((s.afterFrame h body cs rest).withRx .headerParsed).classify).2.otherPresent := by
  rw [poll_receives s h body cs rest hr, State.completeFrame]
  have hs : ∀ u : State, ∃ txs : List Frame, u.sendOne.history = u.history ++ txs.map .tx := by
    intro u
    obtain ⟨f, q, -, he⟩ | ⟨-, -, -, he⟩ | ⟨-, he⟩ := sendOne_cases u
    · exact ⟨[f], by rw [he]; rfl⟩
    · exact ⟨[u.cfg.params.romPresence], by rw [he]; rfl⟩
    · exact ⟨[], by rw [he]; simp⟩
  obtain ⟨-, he⟩ | ⟨-, -, he⟩ | ⟨-, -, he⟩ | ⟨-, -, he⟩ := arbiter_cases
    (((s.afterFrame h body cs rest).withRx .headerParsed).classify).2
    (((s.afterFrame h body cs rest).withRx .headerParsed).classify).1
  · exact ⟨[], by rw [he]; simp⟩
  · exact ⟨[], by rw [he]; simp⟩
  · obtain ⟨txs, ht⟩ := hs (((s.afterFrame h body cs rest).withRx .headerParsed).classify).2
    exact ⟨txs, by simpa [he] using ht⟩
  · obtain ⟨txs, ht⟩ := hs (((s.afterFrame h body cs rest).withRx .headerParsed).classify).2.heartbeat
    exact ⟨txs, by simpa [he] using ht⟩

/-- Everything one POLL can do (R110, R111, R120): move the framer's own registers, and then nothing, or reject the header,
or complete the frame held. -/
theorem poll_outcome (s : State) : ∃ r h body b u, u = ({ s with rxState := r, hdr := h, body := body, source := b } : State) ∧
    (s.poll = u
    ∨ s.poll = (u.recordError u.flags.raiseLenErr .errLen).withCounters u.counters.bumpLenErr
    ∨ s.poll = u.withCause .rxForeignCtrl
    ∨ s.poll = u.csumMismatch
    ∨ ∃ evs c, u.OwnEvents evs ∧
        ((IsForeignPresence s.cfg.params h ∧ evs = [] ∧ c = .rxPresence ∧ s.poll = (u.afterAccept evs true c).sendOne)
        ∨ (¬ IsForeignPresence s.cfg.params h ∧ c ≠ .rxPresence ∧
            ((s.otherPresent = true ∧ s.poll = u.afterAccept evs true c)
            ∨ (s.otherPresent = false ∧ s.poll = (u.afterAccept evs false c).heartbeat.sendOne))))) := by
  obtain ⟨r, h, b, he⟩ | ⟨h, b, he⟩ | ⟨h, body, b, he⟩ := poll_cases s
  · exact ⟨r, h, s.body, b, _, rfl, .inl he⟩
  · exact ⟨.initial, h, s.body, b, _, rfl, .inr (.inl he)⟩
  · refine ⟨.initial, h, body, b, _, rfl, ?_⟩
    rw [he]
    obtain ⟨-, hc⟩ | ⟨-, -, hc⟩ | ⟨-, -, evs, c, ho, ⟨h1, h2, h3, hc⟩ | ⟨h1, h2, h3, h4⟩⟩ :=
      completeFrame_cases ({ s with rxState := .headerParsed, hdr := h, body := body, source := b } : State)
    · exact .inr (.inr (.inl (by rw [hc]; rfl)))
    · exact .inr (.inr (.inr (.inl (by rw [hc]; rfl))))
    · exact .inr (.inr (.inr (.inr ⟨evs, c, ho, .inl ⟨h1, h2, h3, by rw [hc, sendOne_withRx]; rfl⟩⟩)))
    · refine .inr (.inr (.inr (.inr ⟨evs, c, ho, .inr ⟨h1, h2, ?_⟩⟩)))
      obtain hop | hop := Bool.eq_false_or_eq_true s.otherPresent
      · exact .inl ⟨hop, by rw [h3 hop]; rfl⟩
      · exact .inr ⟨hop, by rw [h4 hop, sendOne_withRx]; rfl⟩

/-- Everything a POLL does to the queue, the history and what the arbiter keeps (R170, R181, R182). -/
theorem poll_transmission (s : State) : ∃ (evs : List Event) (fs : List Frame),
    s.poll.history = s.history ++ evs.map .ev ++ fs.map .tx ∧ s.poll.cfg = s.cfg
    ∧ s.poll.counters.tx = s.counters.tx + BitVec.ofNat 16 fs.length
    ∧ (s.otherPresent = true → s.poll.otherPresent = true ∧ s.poll.hbCnt = s.hbCnt)
    ∧ s.poll.visValid = s.visValid ∧ s.poll.visHandle = s.visHandle ∧ s.poll.schedule = s.schedule
    ∧ (s.otherPresent = false → s.poll.otherPresent = true →
        IsForeignPresence s.cfg.params s.poll.hdr ∧ s.poll.counters.rxOk = s.counters.rxOk + 1#16 ∧ s.poll.lastCause = .rxPresence)
    ∧ ((fs = [] ∧ s.poll.queue = s.queue)
      ∨ (s.poll.counters.rxOk = s.counters.rxOk + 1#16 ∧ (s.poll.otherPresent = true → s.poll.lastCause = .rxPresence)
        ∧ ((∃ f, fs = [f] ∧ s.queue = f :: s.poll.queue)
          ∨ (fs = [s.cfg.params.romPresence] ∧ s.queue = [] ∧ s.poll.queue = [] ∧ s.otherPresent = false)))) := by
  obtain ⟨r, h, body, b, u, hu, he | he | he | he | ⟨evs, c, -, ⟨hp, he', hc, he⟩ | ⟨-, -, ⟨ho, he⟩ | ⟨ho, he⟩⟩⟩⟩ := poll_outcome s
  · exact ⟨[], [], by rw [he, hu]; simp, by rw [he, hu], by rw [he, hu]; simp, fun h => by rw [he, hu]; exact ⟨h, rfl⟩, by rw [he, hu], by rw [he, hu], by rw [he, hu], fun h1 h2 => by simp [he, hu, h1] at h2, .inl ⟨rfl, by rw [he, hu]⟩⟩
  · exact ⟨[], [], by rw [he, hu]; simp [State.recordError], by rw [he, hu]; rfl, by rw [he, hu]; simp [Counters.bumpLenErr], fun h => by rw [he, hu]; exact ⟨h, rfl⟩, by rw [he, hu]; rfl, by rw [he, hu]; rfl, by rw [he, hu]; rfl, fun h1 h2 => by simp [he, hu, h1, State.recordError] at h2, .inl ⟨rfl, by rw [he, hu]; rfl⟩⟩
  · exact ⟨[], [], by rw [he, hu]; simp, by rw [he, hu]; rfl, by rw [he, hu]; simp, fun h => by rw [he, hu]; exact ⟨h, rfl⟩, by rw [he, hu]; rfl, by rw [he, hu]; rfl, by rw [he, hu]; rfl, fun h1 h2 => by simp [he, hu, h1] at h2, .inl ⟨rfl, by rw [he, hu]; rfl⟩⟩
  · exact ⟨[], [], by rw [he, hu]; simp [State.csumMismatch, State.recordError], by rw [he, hu]; rfl, by rw [he, hu]; simp [State.csumMismatch, Counters.bumpCsumErr], fun h => by rw [he, hu]; exact ⟨h, rfl⟩, by rw [he, hu]; rfl, by rw [he, hu]; rfl, by rw [he, hu]; rfl, fun h1 h2 => by simp [he, hu, h1, State.csumMismatch, State.recordError] at h2, .inl ⟨rfl, by rw [he, hu]; rfl⟩⟩
  · generalize hv : u.afterAccept evs true c = v at he
    have k : v.cfg = s.cfg ∧ v.history = s.history ++ evs.map .ev ∧ v.counters.tx = s.counters.tx ∧ v.counters.rxOk = s.counters.rxOk + 1#16 ∧ v.otherPresent = true
       ∧ v.hbCnt = s.hbCnt ∧ v.queue = s.queue ∧ v.lastCause = .rxPresence ∧ v.hdr = h ∧ v.visValid = s.visValid ∧ v.visHandle = s.visHandle ∧ v.schedule = s.schedule := by
      rw [← hv, hu, hc]; simp [State.afterAccept, Counters.bumpRxOk]
    obtain ⟨k1, k2, k3, k4, k5, k6, k7, k8, k9, k10, k11, k12⟩ := k
    obtain ⟨f, q, hq, hs⟩ | ⟨-, ho, -, -⟩ | ⟨hq, hs⟩ := sendOne_cases v
    · refine ⟨evs, [f], ?_⟩
      rw [he, hs]
      simp [State.transmit, Counters.bumpTx, k1, k2, k3, k4, k5, k6, k8, k9, k10, k11, k12, hp, ← k7, hq]
    · rw [k5] at ho; cases ho
    · refine ⟨evs, [], ?_⟩
      rw [he, hs]
      simp [k1, k2, k3, k4, k5, k6, k7, k8, k9, k10, k11, k12, hp]
  · refine ⟨evs, [], ?_⟩
    rw [he, hu]
    simp [State.afterAccept, Counters.bumpRxOk, ho]
  · have hbt := heartbeat_toNat (u.afterAccept evs false c)
    generalize hv : (u.afterAccept evs false c).heartbeat = v at he
    have k : v.cfg = s.cfg ∧ v.history = s.history ++ evs.map .ev ∧ v.counters.tx = s.counters.tx ∧ v.counters.rxOk = s.counters.rxOk + 1#16 ∧ v.otherPresent = false
       ∧ v.queue = s.queue ∧ v.hdr = h ∧ v.visValid = s.visValid ∧ v.visHandle = s.visHandle ∧ v.schedule = s.schedule := by
      rw [← hv, hu]; simp [State.afterAccept, Counters.bumpRxOk]
    obtain ⟨k1, k2, k3, k4, k5, k7, k9, k10, k11, k12⟩ := k
    obtain ⟨f, q, hq, hs⟩ | ⟨hq, -, -, hs⟩ | ⟨hq, hs⟩ := sendOne_cases v
    · refine ⟨evs, [f], ?_⟩
      rw [he, hs]
      simp [State.transmit, Counters.bumpTx, k1, k2, k3, k4, k5, k9, k10, k11, k12, ← k7, hq, ho]
    · refine ⟨evs, [s.cfg.params.romPresence], ?_⟩
      rw [he, hs]
      simp [State.transmit, Counters.bumpTx, k1, k2, k3, k4, k5, k9, k10, k11, k12, ← k7, hq, ho]
    · refine ⟨evs, [], ?_⟩
      rw [he, hs]
      simp [k1, k2, k3, k4, k5, k7, k9, k10, k11, k12, ho]

end Sys2Proof.Machine
end

