-- ==== Sys2Proof/Laws/Encoding.lean ====
section
/-! SUPPORT. The fields of an encoded operation, and the words of the reserved opcodes. -/

namespace Sys2Proof.Machine

theorem opcField_encode (i : Instr) : opcField (encode i) = opcodeOf i := by
  have h : ∀ x y : Word, (∀ j, j < 8 → y.getLsbD j = false) → opcField (x ||| y) = opcField x := by
    intro x y hy
    ext j hj
    simp [opcField, hy j hj]
  have h0 : ∀ b : Byte, opcField (b.setWidth 32) = b := by
    intro b; ext j hj; simp [opcField, BitVec.getLsbD_eq_getElem hj]; omega
  rw [encode, h, h0]
  intro j hj
  cases i <;> simp [operandBits] <;> omega

/-- Above OPC a word's bits are its operand bits. -/
theorem encode_getLsbD (i : Instr) (j : Nat) (hj : 8 ≤ j) : (encode i).getLsbD j = (operandBits i).getLsbD j := by
  have : ((opcodeOf i).setWidth 32).getLsbD j = false := by
    rw [BitVec.getLsbD_setWidth, BitVec.getLsbD_of_ge _ _ hj]; simp
  rw [encode, BitVec.getLsbD_or, this, Bool.false_or]

theorem slotField_encode (slot : Fin 16) (handle : Byte) : slotField (encode (.register slot handle)) = slot := by
  have h : (encode (.register slot handle)).extractLsb' 8 4 = BitVec.ofNat 4 slot.val := by
    ext j hj
    have h2 : 8 + j < 32 := by omega
    have h3 : 8 + j < 16 := by omega
    have h4 : j < 32 := by omega
    rw [BitVec.getElem_extractLsb', encode_getLsbD _ _ (by omega)]
    simp [operandBits, h2, h3]
    rw [← BitVec.getLsbD_eq_getElem, BitVec.getLsbD_ofNat]
    simp [h4]
  rw [slotField, h]
  ext
  simp

theorem handleField_encode (slot : Fin 16) (handle : Byte) : handleField (encode (.register slot handle)) = handle := by
  ext j hj
  have h2 : 16 + j < 32 := by omega
  have h3 : ¬ 16 + j < 8 := by omega
  have h4 : 16 + j - 8 < 32 := by omega
  have h5 : slot.val.testBit (16 + j - 8) = false := Nat.testBit_lt_two_pow
    (Nat.lt_of_lt_of_le slot.isLt (Nat.pow_le_pow_right (n := 2) (by omega) (show 4 ≤ 16 + j - 8 by omega)))
  rw [handleField, BitVec.getElem_extractLsb', encode_getLsbD _ _ (by omega)]
  have hz : (BitVec.ofNat 32 slot.val)[16 + j - 8] = false := by
    rw [← BitVec.getLsbD_eq_getElem, BitVec.getLsbD_ofNat, h5]
    simp
  simp [operandBits, h2, h3, hz, BitVec.getLsbD_eq_getElem hj]

theorem argField_encode (centi : Half) : argField (encode (.setTemp centi)) = centi := by
  ext j hj
  have h2 : 16 + j < 32 := by omega
  rw [argField, BitVec.getElem_extractLsb', encode_getLsbD _ _ (by omega)]
  simp [operandBits, h2, BitVec.getLsbD_eq_getElem hj]

/-- A word of a reserved opcode is refused by name. -/
theorem decode_reserved (w : Word) (h : ∀ i : Instr, opcField w ≠ opcodeOf i) :
    decode w = .error (.reservedOpcode (opcField w)) := by
  rw [decode]
  split
  · next he => exact absurd he (h .nop)
  · next he => exact absurd he (h .poll)
  · next he => exact absurd he (h (.register 0 0))
  · next he => exact absurd he (h .commLoss)
  · next he => exact absurd he (h .clrerr)
  · next he => exact absurd he (h .turnOn)
  · next he => exact absurd he (h .turnOff)
  · next he => exact absurd he (h .hotButton)
  · next he => exact absurd he (h (.setTemp 0))
  · next he => exact absurd he (h .recircOn)
  · next he => exact absurd he (h .recircOff)
  · rfl

end Sys2Proof.Machine
end

