-- ==== Sys2Proof/Laws/Legal.lean ====
section
/-! SUPPORT. The checks of a configuration's field maps decide the constraints as the rules state them (R147, R150, R152),
one lemma per descriptor kind; and what a mask of contiguous bits extracts (R148). -/

namespace Sys2Proof.Machine

/-! ### Masks -/

/-- A mask's 1 bits, `n` from bit `lo` up, determine it. -/
theorem MaskBits.eq {m : Byte} {lo n : Nat} (h : MaskBits m lo n) :
    m = BitVec.ofNat 8 ((2 ^ n - 1) * 2 ^ lo) := by
  obtain ⟨-, -, h⟩ := h
  ext i hi
  rw [← BitVec.getLsbD_eq_getElem, ← BitVec.getLsbD_eq_getElem, BitVec.getLsbD_ofNat, Nat.mul_comm, Nat.testBit_two_pow_mul,
    Nat.testBit_two_pow_sub_one, Bool.eq_iff_iff, h i hi]
  simp
  omega

theorem masks_table : ∀ lo : Fin 8, ∀ n : Fin 9, 1 ≤ n.val → lo.val + n.val ≤ 8 →
    contiguous (BitVec.ofNat 8 ((2 ^ n.val - 1) * 2 ^ lo.val)) = true
      ∧ popcount (BitVec.ofNat 8 ((2 ^ n.val - 1) * 2 ^ lo.val)) = n.val
      ∧ ∀ b : Byte, (maskedValue b (BitVec.ofNat 8 ((2 ^ n.val - 1) * 2 ^ lo.val))).toNat
          = b.toNat / 2 ^ lo.val % 2 ^ n.val := by
  decide +kernel

/-- Everything a mask of contiguous bits does: it is legal, as wide as its bits, and extracts them (R148). -/
theorem MaskBits.spec {m : Byte} {lo n : Nat} (h : MaskBits m lo n) :
    contiguous m = true ∧ popcount m = n ∧ ∀ b : Byte, (maskedValue b m).toNat = b.toNat / 2 ^ lo % 2 ^ n := by
  have hl := h.2.1
  rw [h.eq]
  exact masks_table ⟨lo, by have := h.1; omega⟩ ⟨n, by omega⟩ h.1 hl

theorem contiguous_table : ∀ m : Byte, contiguous m = true →
    ∃ lo : Fin 8, ∃ n : Fin 9, 1 ≤ n.val ∧ lo.val + n.val ≤ 8
      ∧ ∀ i : Fin 8, (m.getLsbD i.val = true ↔ lo.val ≤ i.val ∧ i.val < lo.val + n.val) := by
  decide +kernel

theorem contiguous_iff (m : Byte) : contiguous m = true ↔ ∃ lo n, MaskBits m lo n := by
  constructor
  · intro h
    obtain ⟨lo, n, h1, h2, h3⟩ := contiguous_table m h
    exact ⟨lo, n, h1, h2, fun i hi => h3 ⟨i, hi⟩⟩
  · rintro ⟨lo, n, h⟩
    exact h.spec.1

theorem twoPow_mask : ∀ i : Fin 8,
    contiguous (BitVec.twoPow 8 i.val) = true ∧ popcount (BitVec.twoPow 8 i.val) = 1 := by decide +kernel

/-! ### Descriptor kinds -/

theorem flagDesc_iff (d : FieldDesc) : (descLegal d && kindAdmits .flag d) = true ↔ FlagDesc d := by
  cases d with
  | absent => simp [descLegal, kindAdmits, FlagDesc]
  | word hi lo => simp [kindAdmits, FlagDesc]
  | byte off m =>
    simp only [descLegal, kindAdmits, FlagDesc, Bool.and_eq_true, decide_eq_true_eq, beq_iff_eq, FieldDesc.byte.injEq,
      reduceCtorEq, false_or]
    constructor
    · rintro ⟨⟨h1, -⟩, h2⟩
      obtain ⟨i, hi, hm, -⟩ := popcount_one m h2
      exact ⟨off, i, h1, hi, rfl, hm⟩
    · rintro ⟨_, i, h1, hi, rfl, rfl⟩
      exact ⟨⟨h1, (twoPow_mask ⟨i, hi⟩).1⟩, (twoPow_mask ⟨i, hi⟩).2⟩

theorem fullByteDesc_iff (d : FieldDesc) : (descLegal d && kindAdmits .fullByte d) = true ↔ FullByteDesc d := by
  have : contiguous 0xFF#8 = true := by decide
  cases d with
  | absent => simp [descLegal, kindAdmits, FullByteDesc]
  | word hi lo => simp [kindAdmits, FullByteDesc]
  | byte off m =>
    simp only [descLegal, kindAdmits, FullByteDesc, Bool.and_eq_true, decide_eq_true_eq, beq_iff_eq, FieldDesc.byte.injEq,
      reduceCtorEq, false_or]
    constructor
    · rintro ⟨⟨h1, -⟩, h2⟩; exact ⟨off, h1, rfl, h2⟩
    · rintro ⟨_, h1, rfl, rfl⟩; exact ⟨⟨h1, this⟩, rfl⟩

theorem codeDesc_iff (d : FieldDesc) : (descLegal d && kindAdmits .code d) = true ↔ CodeDesc d := by
  cases d with
  | absent => simp [descLegal, kindAdmits, CodeDesc]
  | word hi lo => simp [kindAdmits, CodeDesc]
  | byte off m =>
    simp only [descLegal, kindAdmits, CodeDesc, Bool.and_eq_true, decide_eq_true_eq, FieldDesc.byte.injEq, reduceCtorEq,
      false_or, contiguous_iff]
    constructor
    · rintro ⟨⟨h1, lo, n, h2⟩, -⟩; exact ⟨off, m, lo, n, h1, h2, rfl, rfl⟩
    · rintro ⟨_, _, lo, n, h1, h2, rfl, rfl⟩; exact ⟨⟨h1, lo, n, h2⟩, trivial⟩

theorem wordDesc_iff (d : FieldDesc) : (descLegal d && kindAdmits .wordPair d) = true ↔ WordDesc d := by
  cases d with
  | absent => simp [descLegal, kindAdmits, WordDesc]
  | byte off m => simp [kindAdmits, WordDesc]
  | word hi lo => simp [descLegal, kindAdmits, WordDesc, and_assoc]

theorem counterDesc_iff (d : FieldDesc) : (descLegal d && kindAdmits .counter d) = true ↔ CounterDesc d := by
  rw [CounterDesc, ← wordDesc_iff, ← fullByteDesc_iff]
  cases d <;> simp [kindAdmits, descLegal]

/-! ### Field maps -/

theorem badRows_eq_nil (start : Nat) (rows : List (FieldKind × FieldDesc)) :
    badRows start rows = [] ↔ ∀ x ∈ rows, (descLegal x.2 && kindAdmits x.1 x.2) = true := by
  induction rows generalizing start with
  | nil => simp [badRows]
  | cons x rest ih =>
    obtain ⟨k, d⟩ := x
    rw [badRows, List.forall_mem_cons]
    split
    · next h => rw [ih]; exact (and_iff_right h).symm
    · next h => exact ⟨fun hn => absurd hn (List.cons_ne_nil _ _), fun hn => absurd hn.1 h⟩

theorem waterRows_legal_iff (m : WaterMap) : badRows 0 (waterRows m) = [] ↔ LegalWaterMap m := by
  rw [badRows_eq_nil]
  simp only [waterRows, List.forall_mem_cons, flagDesc_iff, fullByteDesc_iff, codeDesc_iff]
  constructor
  · rintro ⟨h1, h2, h3, h4, h5, h6, h7, h8, h9, h10, h11, h12, h13, -⟩
    exact ⟨h1, h2, h3, h4, h5, h6, h7, h8, h9, h10, h11, h12, h13⟩
  · rintro ⟨h1, h2, h3, h4, h5, h6, h7, h8, h9, h10, h11, h12, h13⟩
    exact ⟨h1, h2, h3, h4, h5, h6, h7, h8, h9, h10, h11, h12, h13, by simp⟩

theorem gasRows_legal_iff (m : GasMap) : badRows 0 (gasRows m) = [] ↔ LegalGasMap m := by
  rw [badRows_eq_nil]
  simp only [gasRows, List.forall_mem_cons, flagDesc_iff, fullByteDesc_iff, codeDesc_iff, wordDesc_iff, counterDesc_iff]
  constructor
  · rintro ⟨h1, h2, h3, h4, h5, h6, h7, h8, h9, h10, h11, h12, h13, h14, h15, h16, h17, h18, h19, -⟩
    exact ⟨h1, h2, h3, h4, h5, h6, h7, h8, h9, h10, h11, h12, h13, h14, h15, h16, h17, h18, h19⟩
  · rintro ⟨h1, h2, h3, h4, h5, h6, h7, h8, h9, h10, h11, h12, h13, h14, h15, h16, h17, h18, h19⟩
    exact ⟨h1, h2, h3, h4, h5, h6, h7, h8, h9, h10, h11, h12, h13, h14, h15, h16, h17, h18, h19, by simp⟩

end Sys2Proof.Machine
end

