-- ==== Sys2Proof/Laws/Outside.lean ====
section
/-! SUPPORT. What lies outside the block makes no difference inside it: POLL commutes with the schedule, and an attempt that completes commutes with an arrival. -/

namespace Sys2Proof.Machine

/-! ### what lies outside the block makes no difference inside -/

/-- The byte source and the agents' schedule as another run has them. -/
def State.outside (s : State) (b : List Byte) (r : List Input) : State := (s.withSource b).withSchedule r

@[simp] theorem State.outside_otherPresent (s : State) (b : List Byte) (r : List Input) : (s.outside b r).otherPresent = s.otherPresent := rfl

theorem sendOne_outside (s : State) (b : List Byte) (r : List Input) : (s.outside b r).sendOne = s.sendOne.outside b r := by
  rcases h : s.queue with _ | ⟨f, q⟩
  · by_cases hn : s.otherPresent = false ∧ s.hbCnt.toNat = s.cfg.params.presenceInterval
    · rw [sendOne_presence s h hn.1 hn.2, sendOne_presence (s.outside b r) h hn.1 hn.2]; rfl
    · rw [sendOne_idle s h hn, sendOne_idle (s.outside b r) h hn]
  · rw [sendOne_queued s f q h, sendOne_queued (s.outside b r) f q h]; rfl

theorem arbiter_outside (s : State) (b : List Byte) (r : List Input) (c : Completion) : (s.outside b r).arbiter c = (s.arbiter c).outside b r := by
  have hh : (s.outside b r).heartbeat = s.heartbeat.outside b r := rfl
  cases c <;> simp only [State.arbiter, State.outside_otherPresent, hh, sendOne_outside] <;> split <;> rfl

theorem dispatch_outside (s : State) (b : List Byte) (r : List Input) (d : Decoded) : (s.outside b r).dispatch d = (s.dispatch d).outside b r := by
  obtain ⟨h, he⟩ | ⟨k, hk, ⟨hr, he⟩ | ⟨hr, he⟩⟩ := dispatch_cases s d
  · rw [he, dispatch_outOfRange (s.outside b r) d h]; rfl
  · rw [he, dispatch_noVisitor (s.outside b r) d k hk hr]; rfl
  · rw [he, dispatch_visitor (s.outside b r) d k hk hr]; rfl

theorem decodeStatus_outside (s : State) (b : List Byte) (r : List Input) : (s.outside b r).decodeStatus = s.decodeStatus.outside b r := by
  by_cases h1 : s.hdr.dst = s.cfg.params.dstWater
  · by_cases h2 : s.bodyLen < waterMinLen s.cfg.params.waterMap
    · rw [decodeStatus_short s (.inl ⟨h1, h2⟩), decodeStatus_short (s.outside b r) (.inl ⟨h1, h2⟩)]; rfl
    · rw [decodeStatus_water s h1 (Nat.not_lt.1 h2), decodeStatus_water (s.outside b r) h1 (Nat.not_lt.1 h2), ← dispatch_outside]; rfl
  · by_cases h2 : s.hdr.dst = s.cfg.params.dstGas
    · by_cases h3 : s.bodyLen < gasMinLen s.cfg.params.gasMap
      · rw [decodeStatus_short s (.inr ⟨h2, h3⟩), decodeStatus_short (s.outside b r) (.inr ⟨h2, h3⟩)]; rfl
      · rw [decodeStatus_gas s h2 (Nat.not_lt.1 h3), decodeStatus_gas (s.outside b r) h2 (Nat.not_lt.1 h3), ← dispatch_outside]; rfl
    · rw [decodeStatus_unknown s h1 h2, decodeStatus_unknown (s.outside b r) h1 h2]; rfl

theorem classify_outside (s : State) (b : List Byte) (r : List Input) :
    (s.outside b r).classify.1 = s.classify.1 ∧ (s.outside b r).classify.2 = s.classify.2.outside b r := by
  have hc : (s.outside b r).checksumValid = s.checksumValid := rfl
  have hp : (s.outside b r).cfg = s.cfg := rfl
  have hd : (s.outside b r).hdr = s.hdr := rfl
  have hb : (s.outside b r).counters = s.counters := rfl
  have hw : ∀ c, (s.outside b r).withCounters c = (s.withCounters c).outside b r := fun _ => rfl
  rw [State.classify, State.classify, hp, hd]
  cases frameClass s.cfg.params s.hdr <;> simp only [State.validated, hc, hb, hw]
  · split
    · exact ⟨rfl, decodeStatus_outside _ _ _⟩
    · exact ⟨rfl, rfl⟩
  · split
    · rw [State.presence, State.presence]
      have : ((s.withCounters s.counters.bumpRxOk).outside b r).isPresenceShape = (s.withCounters s.counters.bumpRxOk).isPresenceShape := rfl
      rw [this]
      split <;> exact ⟨rfl, rfl⟩
    · exact ⟨rfl, rfl⟩
  · exact ⟨trivial, rfl⟩
  · split <;> exact ⟨rfl, rfl⟩

theorem completeFrame_outside (s : State) (b : List Byte) (r : List Input) : (s.outside b r).completeFrame = s.completeFrame.outside b r := by
  obtain ⟨h1, h2⟩ := classify_outside s b r
  rw [State.completeFrame, State.completeFrame, h1, h2, arbiter_outside]

theorem completeFrame_withSchedule (s : State) (r : List Input) :
    (s.withSchedule r).completeFrame = s.completeFrame.withSchedule r := by
  have h := State.completeFrame_source s
  have e := completeFrame_outside s s.source r
  generalize s.completeFrame = u at *
  rw [← h] at e
  rw [show s.withSchedule r = s.outside u.source r by rw [h]; rfl, e]
  rfl

theorem completeFrame_arrive (s : State) (bytes : List Byte) :
    (s.arrive bytes).completeFrame = s.completeFrame.arrive bytes := by
  have h1 := State.completeFrame_source s
  have h2 := State.completeFrame_schedule s
  have e := completeFrame_outside s (s.source ++ bytes) s.schedule
  rw [show s.outside (s.source ++ bytes) s.schedule = s.arrive bytes from rfl] at e
  rw [e]
  generalize s.completeFrame = u at *
  rw [← h1, ← h2]
  rfl

theorem poll_withSchedule (s : State) (r : List Input) : (s.withSchedule r).poll = s.poll.withSchedule r := by
  have hb : ∀ t : State, (t.withSchedule r).pollBody = t.pollBody.withSchedule r := by
    intro t
    cases ht : t.rxState
    · rw [pollBody_of_initial t ht, pollBody_of_initial (t.withSchedule r) ht]
    · rw [pollBody_of_markerFound t ht, pollBody_of_markerFound (t.withSchedule r) ht]
    · by_cases hl : t.source.length < t.bodyLen + 1
      · rw [pollBody_short t ht hl, pollBody_short (t.withSchedule r) ht hl]
      · rw [pollBody_take t ht (by omega), pollBody_take (t.withSchedule r) ht (by exact Nat.not_lt.1 hl),
          show (t.withSchedule r).takeBody = t.takeBody.withSchedule r from rfl, completeFrame_withSchedule]
        rfl
  have hc : ∀ t : State, (t.withSchedule r).checkLength = t.checkLength.withSchedule r := by
    intro t
    rw [State.checkLength, State.checkLength]
    by_cases h : t.bodyLen > Wire.lenMax
    · rw [if_pos h, if_pos (by exact h)]; rfl
    · rw [if_neg h, if_neg (by exact h)]
  have hh : ∀ t : State, (t.withSchedule r).pollHeader = t.pollHeader.withSchedule r := by
    intro t
    cases ht : t.rxState
    · rw [pollHeader_of_initial t ht, pollHeader_of_initial (t.withSchedule r) ht]
    · by_cases hl : t.source.length < 6
      · rw [pollHeader_short t ht hl, pollHeader_short (t.withSchedule r) ht hl]
      · rw [pollHeader_take t ht (by omega), pollHeader_take (t.withSchedule r) ht (by exact Nat.not_lt.1 hl), State.takeHeader, State.takeHeader, ← hc]
        rfl
    · rw [pollHeader_of_headerParsed t ht, pollHeader_of_headerParsed (t.withSchedule r) ht]
  have hs : ∀ t : State, (t.withSchedule r).pollScan = t.pollScan.withSchedule r := by
    intro t
    cases ht : t.rxState
    · rw [pollScan_of_initial t ht, pollScan_of_initial (t.withSchedule r) ht, State.scan, State.scan, show (t.withSchedule r).source = t.source from rfl]
      split <;> rfl
    · simp [State.pollScan, ht]
    · simp [State.pollScan, ht]
  rw [State.poll, State.poll, hs, hh, hb]

/-- A POLL that completes an attempt does the same with more bytes behind, and consumes at least one. -/
theorem poll_completes (s : State) (h : ¬ s.PollSuspends) (bytes : List Byte) :
    (s.arrive bytes).poll = s.poll.arrive bytes ∧ s.poll.source.length < s.source.length := by
  have hp : s.poll.rxState = .initial := by
    by_contra hc; exact h (.inl hc)
  have hbody : ∀ t : State, t.rxState = .headerParsed → t.pollBody.rxState = .initial →
      (t.arrive bytes).pollBody = t.pollBody.arrive bytes ∧ t.pollBody.source.length < t.source.length := by
    intro t ht hi
    by_cases hl : t.source.length < t.bodyLen + 1
    · rw [pollBody_short t ht hl, ht] at hi; cases hi
    · have hl' : t.bodyLen + 1 ≤ (t.arrive bytes).source.length := by simp [State.arrive]; omega
      rw [pollBody_take t ht (by omega), pollBody_take (t.arrive bytes) ht hl']
      have e : (t.arrive bytes).takeBody = t.takeBody.arrive bytes := by
        simp only [State.takeBody, State.arrive, State.consume, State.withBody_source, State.withSource_source]
        rw [show (t.withSource (t.source ++ bytes)).bodyLen = t.bodyLen from rfl, List.take_append_of_le_length (by omega), List.drop_append_of_le_length (by omega)]
        rfl
      refine ⟨by rw [e, completeFrame_arrive]; rfl, ?_⟩
      simp [State.takeBody, State.consume]
      omega
  have hmk : ∀ t : State, t.rxState = .markerFound → t.poll.rxState = .initial →
      (t.arrive bytes).poll = t.poll.arrive bytes ∧ t.poll.source.length < t.source.length := by
    intro t ht hi
    by_cases hl : t.source.length < 6
    · rw [poll_marker_short t ht hl, ht] at hi; cases hi
    · have hs := headerBytes_headerOfBytes t.source (by omega)
      generalize headerOfBytes (t.source.take 6) = h at hs
      generalize t.source.drop 6 = b at hs
      have h1 := poll_markerFound t h b ht hs.symm
      have h2 := poll_markerFound (t.arrive bytes) h (b ++ bytes) ht (by simp [State.arrive, ← hs])
      by_cases hlen : h.length.toNat ≤ 121
      · rw [checkLength_ok _ (by exact hlen)] at h1 h2
        rw [h1] at hi ⊢
        rw [h2]
        obtain ⟨e1, e2⟩ := hbody _ rfl hi
        refine ⟨e1, Nat.lt_trans e2 ?_⟩
        rw [← hs]; simp
      · rw [checkLength_reject _ (by exact Nat.lt_of_not_le hlen), pollBody_of_initial _ rfl] at h1 h2
        rw [h1, h2, ← hs]
        exact ⟨rfl, by simp⟩
  cases hr : s.rxState with
  | initial =>
    obtain hn | ⟨g, rest, hs, hg, -⟩ := scanBytes_cases s.source
    · exact absurd (.inr ⟨hr, (scanBytes_eq_nil_iff _).1 hn⟩) h
    · have e1 := poll_scanned s g rest hr hg hs
      have e2 := poll_scanned (s.arrive bytes) g (rest ++ bytes) hr hg (by simp [State.arrive, hs])
      obtain ⟨h1, h2⟩ := hmk ({ s with rxState := .markerFound, source := Wire.marker :: rest } : State) rfl (by rw [← e1]; exact hp)
      rw [e1, e2, hs]
      refine ⟨h1, Nat.lt_of_lt_of_le h2 (by simp)⟩
  | markerFound => exact hmk s hr hp
  | headerParsed =>
    rw [poll_headerParsed s hr] at hp ⊢
    rw [poll_headerParsed (s.arrive bytes) hr]
    exact hbody s hr hp

end Sys2Proof.Machine
end

