-- ==== Sys2Proof/Laws/PerInstr.lean ====
section
/-! SUPPORT. Facts about every operation, stated per constructor. -/

namespace Sys2Proof.Laws

/-- The word of an operation carries the operation's opcode in bits 7..0, and the operation is well formed (R82, R86). -/
def OpcodeMatches.Statement (i : Instr) : Prop :=
  i.wellFormed = true ∧ Machine.opcField (encode i) = opcodeOf i

theorem OpcodeMatches.nop : OpcodeMatches.Statement .nop := ⟨rfl, Machine.opcField_encode _⟩

theorem OpcodeMatches.poll : OpcodeMatches.Statement .poll := ⟨rfl, Machine.opcField_encode _⟩

theorem OpcodeMatches.register (slot : Fin 16) (handle : Byte) : OpcodeMatches.Statement (.register slot handle) :=
  ⟨decide_eq_true slot.isLt, Machine.opcField_encode _⟩

theorem OpcodeMatches.commLoss : OpcodeMatches.Statement .commLoss := ⟨rfl, Machine.opcField_encode _⟩

theorem OpcodeMatches.clrerr : OpcodeMatches.Statement .clrerr := ⟨rfl, Machine.opcField_encode _⟩

theorem OpcodeMatches.turnOn : OpcodeMatches.Statement .turnOn := ⟨rfl, Machine.opcField_encode _⟩

theorem OpcodeMatches.turnOff : OpcodeMatches.Statement .turnOff := ⟨rfl, Machine.opcField_encode _⟩

theorem OpcodeMatches.hotButton : OpcodeMatches.Statement .hotButton := ⟨rfl, Machine.opcField_encode _⟩

theorem OpcodeMatches.setTemp (centi : Half) : OpcodeMatches.Statement (.setTemp centi) := ⟨rfl, Machine.opcField_encode _⟩

theorem OpcodeMatches.recircOn : OpcodeMatches.Statement .recircOn := ⟨rfl, Machine.opcField_encode _⟩

theorem OpcodeMatches.recircOff : OpcodeMatches.Statement .recircOff := ⟨rfl, Machine.opcField_encode _⟩

end Sys2Proof.Laws
end

