-- ==== Sys2Proof/Laws/Registers.lean ====
section
/-! SUPPORT. The register words, byte by byte. -/

namespace Sys2Proof.Machine

theorem getLsbD_append_if {n m : Nat} (x : BitVec n) (y : BitVec m) (i : Nat) :
    (x ++ y).getLsbD i = if i < m then y.getLsbD i else x.getLsbD (i - m) := by
  rw [BitVec.getLsbD_append]

theorem packBytes_byte (b0 b1 b2 b3 : Byte) (j : Nat) (hj : j < 4) :
    (packBytes b0 b1 b2 b3).extractLsb' (8 * j) 8 = if j = 0 then b0 else if j = 1 then b1 else if j = 2 then b2 else b3 := by
  ext i hi
  rw [BitVec.getElem_extractLsb', packBytes]
  simp only [getLsbD_append_if]
  obtain rfl | rfl | rfl | rfl : j = 0 ∨ j = 1 ∨ j = 2 ∨ j = 3 := by omega
  · simp [hi];
  · simp [show ¬ 8 + i < 8 by omega, hi];
  · simp [show ¬ 16 + i < 8 by omega, hi, show ¬ 16 + i - 8 < 8 by omega, show 16 + i - 8 - 8 = i by omega];
  · simp [show ¬ 24 + i < 8 by omega, hi, show ¬ 24 + i - 8 < 8 by omega, show ¬ 24 + i - 8 - 8 < 8 by omega,  show 24 + i - 8 - 8 - 8 = i by omega]

theorem halves_low (x y : Half) : (x ++ y).extractLsb' 0 16 = y := by
  ext i hi; rw [BitVec.getElem_extractLsb', getLsbD_append_if]; simp [hi]

theorem halves_high (x y : Half) : (x ++ y).extractLsb' 16 16 = x := by
  ext i hi; rw [BitVec.getElem_extractLsb', getLsbD_append_if]; simp [show ¬ 16 + i < 16 by omega, BitVec.getLsbD_eq_getElem hi]

end Sys2Proof.Machine
end

