-- ==== Sys2Proof/Laws/Step.lean ====
section
/-! SUPPORT. Everything a step can be (`step_cases`). -/

namespace Sys2Proof.Machine

/-- Everything a step can be: idle, a bus arrival, a register read, reset, or a word at the operation port (R9, R245). -/
theorem step_cases {s t : State} (h : step s = .next t) :
    (s.schedule = [] ∧ t = s)
    ∨ ∃ rest,
      (∃ bytes, s.schedule = .arrival bytes :: rest ∧ t = (s.withSchedule rest).arrive bytes)
      ∨ (∃ a, s.schedule = .registerRead a :: rest ∧ t = (s.withSchedule rest).answer a (s.regRead a))
      ∨ (s.schedule = .hostReset :: rest ∧ t = (s.withSchedule rest).hostReset)
      ∨ ∃ w, s.schedule = .operation w :: rest ∧
        ((∃ i, decode w = .ok i ∧ exec i (s.withSchedule rest) = .next t)
        ∨ (∃ e, decode w = .error e ∧ t = (s.withSchedule rest).badOp)) := by
  rw [step] at h
  rcases hs : s.schedule with _ | ⟨x, rest⟩
  · rw [hs] at h
    cases h
    exact .inl ⟨rfl, rfl⟩
  · rw [hs] at h
    refine .inr ⟨rest, ?_⟩
    cases x with
    | operation w =>
      refine .inr (.inr (.inr ⟨w, rfl, ?_⟩))
      simp only [perform, issue] at h
      cases hd : decode w with
      | ok i => rw [hd] at h; exact .inl ⟨i, rfl, h⟩
      | error e => rw [hd] at h; cases h; exact .inr ⟨e, rfl, rfl⟩
    | arrival bytes => cases h; exact .inl ⟨bytes, rfl, rfl⟩
    | registerRead a => cases h; exact .inr (.inl ⟨a, rfl, rfl⟩)
    | hostReset => cases h; exact .inr (.inr (.inl ⟨rfl, rfl⟩))

theorem step_total (s : State) : ∃ t, step s = .next t := by
  rw [step]
  split
  · exact ⟨_, rfl⟩
  · next x r _ =>
    cases x with
    | operation w =>
      simp only [perform, issue]
      split
      · next i _ => cases i <;> exact ⟨_, rfl⟩
      · exact ⟨_, rfl⟩
    | _ => exact ⟨_, rfl⟩
-- from o8

end Sys2Proof.Machine
end

