-- ==== Sys2Proof/Tests/Slice0.lean ====
section
/-! SUPPORT. Tests of our own, all in the example configuration EX1: the expected values are those of
spec/95_test_vectors.md (the vector's name stands in the comment) or worked out by hand from a rule.  After them, for every
statement that has hypotheses, a concrete state and operands that meet them. -/

namespace Sys2Proof.Tests

open Sys2Proof.Machine

set_option Elab.async false

/-! ### Helpers -/

/-- The machine after reset with the configuration EX1. -/
def start : State := State.resetWith Config.ex1

/-- The machine after reset with `f` on the byte source. -/
def hearing (f : List Byte) : State := { start with source := f }

/-- The state after an operation, if it completes. -/
def after (i : Instr) (s : State) : Option State :=
  match exec i s with
  | .next t => some t
  | .fault _ => none
  | .refused _ => none

/-- W0: a water status frame of source 0x50, slot 0. -/
def w0 : Frame :=
  [0xF7#8, 0x05#8, 0x50#8, 0x50#8, 0x90#8, 0x08#8, 0x09#8, 0x52#8, 0x50#8, 0x1E#8, 0x2D#8, 0x64#8, 0x02#8, 0x14#8,
   0x60#8]

/-- W1: the same payload from source 0x51, slot 1. -/
def w1 : Frame :=
  [0xF7#8, 0x05#8, 0x51#8, 0x50#8, 0x90#8, 0x08#8, 0x09#8, 0x52#8, 0x50#8, 0x1E#8, 0x2D#8, 0x64#8, 0x02#8, 0x14#8,
   0xAE#8]

/-- G1: a gas status frame of source 0x51, whose body has exactly MIN_LEN(GAS_MAP) = 25 bytes. -/
def g1 : Frame :=
  [0xF7#8, 0x05#8, 0x51#8, 0x0F#8, 0x90#8, 0x19#8, 0x0B#8, 0x05#8, 0x17#8, 0x52#8, 0x50#8, 0x1E#8, 0x78#8, 0x6E#8,
   0x64#8, 0x30#8, 0x01#8, 0x2C#8, 0x00#8, 0x0F#8, 0x00#8, 0x2A#8, 0x12#8, 0x34#8, 0x00#8, 0x64#8, 0x00#8, 0xC8#8,
   0x01#8, 0x00#8, 0x03#8, 0x07#8]

/-- UDST: an unknown destination. -/
def udst : Frame :=
  [0xF7#8, 0x05#8, 0x50#8, 0x33#8, 0x90#8, 0x01#8, 0x00#8, 0xDC#8]

/-- WSHORT: a body of 2 bytes, shorter than MIN_LEN(WATER_MAP) = 8. -/
def wshort : Frame :=
  [0xF7#8, 0x05#8, 0x50#8, 0x50#8, 0x90#8, 0x02#8, 0x01#8, 0x02#8, 0x3E#8]

/-- FSRC: a control frame of another source. -/
def fsrc : Frame :=
  [0xF7#8, 0x05#8, 0x20#8, 0x50#8, 0x10#8, 0x01#8, 0xAA#8, 0x74#8]

/-- FPRES: a foreign presence frame. -/
def fpres : Frame :=
  [0xF7#8, 0x05#8, 0x0F#8, 0x50#8, 0x10#8, 0x01#8, 0xAA#8, 0x40#8]

/-- FCTRL: an accepted control frame, not of the presence shape. -/
def fctrl : Frame :=
  [0xF7#8, 0x05#8, 0x0F#8, 0x50#8, 0x10#8, 0x02#8, 0x01#8, 0x01#8, 0xB9#8]

/-- S60: a source outside the status set, slot 16. -/
def s60 : Frame :=
  [0xF7#8, 0x05#8, 0x60#8, 0x50#8, 0x90#8, 0x08#8, 0x09#8, 0x52#8, 0x50#8, 0x1E#8, 0x2D#8, 0x64#8, 0x02#8, 0x14#8,
   0x5E#8]

/-- UDIR: an unknown direction. -/
def udir : Frame :=
  [0xF7#8, 0x05#8, 0x50#8, 0x50#8, 0x33#8, 0x01#8, 0x00#8, 0x03#8]

/-- EX1 with one parameter changed. -/
def ex1With (f : Params → Params) : List ConfigError := violations (f Params.ex1)

/-! ### Ill-formed terms, each refused by the check it breaks -/

theorem test_asm_refuses_slot_16 : (AsmLine.register 16 0x22).wellFormed = false := by decide

theorem test_asm_refuses_handle_256 : (AsmLine.register 1 256).wellFormed = false := by decide

theorem test_asm_refuses_centi_65536 : (AsmLine.setTemp 65536).wellFormed = false := by decide

theorem test_asm_refuses_third_decimal : (AsmLine.setTempC 40 [2, 5, 0]).wellFormed = false := by decide

theorem test_asm_refuses_digit_10 : (AsmLine.setTempC 40 [10]).wellFormed = false := by decide

theorem test_asm_refuses_655_36 : (AsmLine.setTempC 655 [3, 6]).wellFormed = false := by decide

theorem test_asm_refuses_polln_0 : (AsmLine.polln 0).wellFormed = false := by decide

theorem test_frame_refuses_other_marker : frameWellFormed (w0.set 0 0xF6#8) = false := by decide

theorem test_frame_refuses_wrong_length : frameWellFormed (w0.set 5 0x09#8) = false := by decide

theorem test_frame_refuses_129_bytes :
    frameWellFormed ([0xF7#8, 0x05#8, 0x50#8, 0x50#8, 0x90#8, 0x7A#8] ++ List.replicate 123 0x00#8) = false := by
  decide +kernel

theorem test_command_refuses_65_bytes :
    commandWellFormed Params.ex1
      ([0xF7#8, 0x05#8, 0x0F#8, 0x50#8, 0x10#8, 0x3A#8] ++ List.replicate 59 0x00#8) = false := by decide +kernel

theorem test_command_refuses_other_source : commandWellFormed Params.ex1 fsrc = false := by decide +kernel

theorem test_command_refuses_other_direction : commandWellFormed Params.ex1 (fctrl.set 4 0x90#8) = false := by
  decide +kernel

theorem test_command_refuses_bad_checksum : commandWellFormed Params.ex1 (fctrl.set 8 0xB8#8) = false := by
  decide +kernel

theorem test_config_ex1_is_legal : violations Params.ex1 = [] := by decide +kernel

theorem test_config_refuses_short_rom :
    .romLength .turnOn ∈ ex1With fun p => { p with romTurnOn := [0xF7#8, 0x05#8, 0x0F#8, 0x50#8, 0x10#8, 0x00#8] } := by
  decide +kernel

theorem test_config_refuses_rom_marker :
    .romMarker .turnOff ∈ ex1With fun p => { p with romTurnOff := p.romTurnOff.set 0 0xF6#8 } := by decide +kernel

theorem test_config_refuses_rom_body_length :
    ex1With (fun p => { p with romSetTemp := p.romSetTemp.set 5 0x03#8 }) = [.romBodyLength .setTemp] := by
  decide +kernel

theorem test_config_refuses_rom_source :
    ex1With (fun p => { p with romSetTemp := p.romSetTemp.set 2 0x20#8 }) = [.romAddress .setTemp] := by decide +kernel

theorem test_config_refuses_rom_checksum :
    ex1With (fun p => { p with romPresence := p.romPresence.set 7 0x41#8 }) = [.romChecksum .presence] := by
  decide +kernel

theorem test_config_refuses_temp_offset :
    ex1With (fun p => { p with tempOffset := 5 }) = [.tempOffset]
      ∧ ex1With (fun p => { p with tempOffset := 8 }) = [.tempOffset] := by decide +kernel

theorem test_config_refuses_equal_destinations :
    ex1With (fun p => { p with dstGas := 0x50#8 }) = [.sameDestinations] := by decide +kernel

theorem test_config_refuses_equal_directions :
    ex1With (fun p => { p with dirStatus := 0x10#8 }) = [.sameDirections] := by decide +kernel

theorem test_config_refuses_status_ctrl_src :
    ex1With (fun p => { p with statusSrcBase := 0x00#8 }) = [.ctrlSrcIsStatus] := by decide +kernel

theorem test_config_refuses_descriptors :
    ex1With (fun p => { p with waterMap := { p.waterMap with power := .byte 0 0x03#8 } }) = [.waterField 0]
      ∧ ex1With (fun p => { p with waterMap := { p.waterMap with heatingMode := .byte 6 0x05#8 } }) = [.waterField 8]
      ∧ ex1With (fun p => { p with gasMap := { p.gasMap with gasInstant := .byte 12 0xFF#8 } }) = [.gasField 10]
      ∧ ex1With (fun p => { p with gasMap := { p.gasMap with gasCumulative := .word 10 121 } }) = [.gasField 9] := by
  decide +kernel

theorem test_config_refuses_sizes :
    ex1With (fun p => { p with presenceInterval := 0 }) = [.presenceInterval]
      ∧ ex1With (fun p => { p with presenceInterval := 256 }) = [.presenceInterval]
      ∧ ex1With (fun p => { p with queueDepth := 1 }) = [.queueDepth]
      ∧ ex1With (fun p => { p with queueDepth := 32 }) = [.queueDepth] := by decide +kernel

/-! ### Words written bit by bit: ARG or HANDLE, RSVD, SLOT, OPC (R80 to R82) -/

theorem test_decode_nop : decode 0b00000000000000000000000000000000#32 = .ok .nop := by decide

theorem test_decode_poll : decode 0b00000000000000000000000000000001#32 = .ok .poll := by decide

/-- REGISTER 1, 0x22: HANDLE 00100010, RSVD 0000, SLOT 0001, OPC 00000010 (V-DI1). -/
theorem test_decode_register : decode 0b00000000001000100000000100000010#32 = .ok (.register 1 0x22#8) := by decide

/-- V-DI7: every unused bit set. -/
theorem test_decode_register_unused_bits : decode 0b11111111001000101111000100000010#32 = .ok (.register 1 0x22#8) := by
  decide

theorem test_decode_commLoss : decode 0b00000000000000000000000000000011#32 = .ok .commLoss := by decide

theorem test_decode_clrerr : decode 0b00000000000000000000000000000100#32 = .ok .clrerr := by decide

theorem test_decode_turnOn : decode 0b00000000000000000000000000010000#32 = .ok .turnOn := by decide

theorem test_decode_turnOff : decode 0b00000000000000000000000000010001#32 = .ok .turnOff := by decide

theorem test_decode_hotButton : decode 0b00000000000000000000000000010010#32 = .ok .hotButton := by decide

/-- SET_TEMP 4025: ARG 0000111110111001, OPC 00010011. -/
theorem test_decode_setTemp : decode 0b00001111101110010000000000010011#32 = .ok (.setTemp 4025#16) := by decide

theorem test_decode_recircOn : decode 0b00000000000000000000000000010100#32 = .ok .recircOn := by decide

theorem test_decode_recircOff : decode 0b00000000000000000000000000010101#32 = .ok .recircOff := by decide

/-- V-HC5. -/
theorem test_decode_reserved :
    decode 0b00000000000000000000000000000101#32 = .error (.reservedOpcode 0x05#8)
      ∧ decode 0b00000000000000000000000000001111#32 = .error (.reservedOpcode 0x0F#8)
      ∧ decode 0b00000000000000000000000000010110#32 = .error (.reservedOpcode 0x16#8) := by decide

/-- The words of the programs of section L3. -/
theorem test_encode_words :
    encode (.register 1 0x22#8) = 0x00220102#32 ∧ encode (.setTemp 12775#16) = 0x31E70013#32
      ∧ encode .recircOff = 0x00000015#32 := by decide

/-- The assembler's text forms (R86, R87). -/
theorem test_assemble_text :
    assembleText "REGISTER 1, 0x22".toList = some [0x00220102#32]
      ∧ assembleText "SET_TEMP_C 40.25".toList = some [0x0FB90013#32]
      ∧ assembleText "POLLN 2".toList = some [0x00000001#32, 0x00000001#32]
      ∧ assembleText "SET_TEMP 65536".toList = none := by decide +kernel

/-! ### The checksum engine (L1.2, L2.1) -/

/-- V-CS1, V-CS2, V-CS4, V-CS5. -/
theorem test_checksum_two_bytes :
    checksum [0xF7#8, 0x05#8] 2 0x4B#8 = 0x81#8 ∧ checksum [0xF7#8, 0x05#8] 2 0x62#8 = 0xD3#8
      ∧ checksum [0x80#8, 0x00#8] 2 0x4B#8 = 0x6A#8 ∧ checksum [0x7F#8, 0x00#8] 2 0x4B#8 = 0xDF#8 := by decide +kernel

/-- V-CS15, V-CS16, and the degenerate case of L1.2. -/
theorem test_checksum_frames :
    checksum w0 14 0x4B#8 = 0x60#8 ∧ checksum g1 31 0x4B#8 = 0x07#8 ∧ checksum g1 31 0x62#8 = 0xCF#8
      ∧ checksum [0xF7#8] 1 0x4B#8 = 0x00#8 := by decide +kernel

/-! ### One step of each operation -/

/-- V-HC7. -/
theorem test_nop : (after .nop (hearing w0)).map (fun t => (t.source, t.regRead 0x00#8)) = some (w0, 0#32) := by
  decide +kernel

/-- V-FR1, seen through the source, the registers and the event. -/
theorem test_poll_water :
    (after .poll ((hearing w0).withVisitor 0 0x11#8)).map
        (fun t => (t.source, t.regRead 0x00#8, evEvents t.history))
      = some ([], 0x01000100#32, [.water 0 0x11#8 0x50#8 (extractWater WaterMap.ex1
          [0x09#8, 0x52#8, 0x50#8, 0x1E#8, 0x2D#8, 0x64#8, 0x02#8, 0x14#8])]) := by decide +kernel

/-- V-FR5 with bit 0 flipped: the frame is dropped. -/
theorem test_poll_bad_checksum :
    (after .poll ((hearing (w0.set 14 0x61#8)).withVisitor 0 0x11#8)).map
        (fun t => (t.regRead 0x00#8, t.regRead 0x02#8, t.history))
      = some (0x00001020#32, 0x00010000#32, []) := by decide +kernel

/-- The raw values of V-FR1's record (L2.3). -/
theorem test_water_record :
    let r := extractWater WaterMap.ex1 [0x09#8, 0x52#8, 0x50#8, 0x1E#8, 0x2D#8, 0x64#8, 0x02#8, 0x14#8]
    r.power = some ⟨1, 1⟩ ∧ r.boilerActive = some ⟨1, 1⟩ ∧ r.recircExternalSched = some ⟨1, 0⟩
      ∧ r.dhwSetTemp = some ⟨8, 82⟩ ∧ r.flow = some ⟨8, 45⟩ ∧ r.operatingState = some ⟨8, 20⟩ := by decide +kernel

/-- The raw values of G1's record (L2.3): a version, a 16-bit pair and a flag under mask 0x02. -/
theorem test_gas_record :
    let r := extractGas GasMap.ex1 (g1.drop 6)
    r.panelFwVersion = some ⟨⟨8, 23⟩, 2, 3⟩ ∧ r.gasCumulative = some ⟨16, 300⟩ ∧ r.operatingTime = some ⟨16, 4660⟩
      ∧ r.hotButtonEnabled = some ⟨1, 1⟩ := by decide +kernel

/-- V-DI1. -/
theorem test_register :
    (after (.register 1 0x22#8) start).map (fun t => (t.regRead 0x01#8, t.regRead 0x11#8))
      = some (0x00000002#32, 0x00000122#32) := by decide +kernel

/-- V-DI6: ascending slots. -/
theorem test_commLoss :
    (after .commLoss ((start.withVisitor 1 0x33#8).withVisitor 0 0x11#8)).map (·.history)
      = some [.ev (.error 0 0x11#8), .ev (.error 1 0x33#8)] := by decide +kernel

/-- V-HC6 and V-HC9. -/
theorem test_clrerr :
    (after .clrerr { start with flags := ⟨false, false, true, false, false⟩, lastCause := .errCsum, otherPresent := true }).map
      (·.regRead 0x00#8) = some 0x00001004#32 := by decide +kernel

/-- V-CQ1. -/
theorem test_turnOn :
    (after .turnOn start).map (·.queue) = some [Params.ex1.romTurnOn, Params.ex1.romTurnOn] := by decide +kernel

/-- V-CQ2: three frames queued. -/
theorem test_turnOff_without_space :
    (after .turnOff { start with queue := List.replicate 3 fctrl }).map (fun t => (t.queue.length, t.regRead 0x00#8))
      = some (3, 0x00032008#32) := by decide +kernel

/-- V-CQ5: press before release. -/
theorem test_hotButton :
    (after .hotButton start).map (·.queue) = some [Params.ex1.romHotPress, Params.ex1.romHotRelease] := by decide +kernel

/-- L2.4: 4025 is 40.25 degrees, which rounds up to 0x51 half degrees. -/
theorem test_setTemp_rounds_up :
    (after (.setTemp 4025#16) start).map (·.queue)
      = some [[0xF7#8, 0x05#8, 0x0F#8, 0x50#8, 0x10#8, 0x02#8, 0x04#8, 0x51#8, 0xE3#8]] := by decide +kernel

/-- L2.4 and V-CQ6: the first operand out of range, on a full queue. -/
theorem test_setTemp_out_of_range :
    (after (.setTemp 12775#16) { start with queue := List.replicate 4 fctrl }).map (fun t => (t.queue.length, t.regRead 0x00#8))
      = some (4, 0x00042180#32) := by decide +kernel

/-- V-CQ3. -/
theorem test_recircOn :
    (after .recircOn { start with queue := List.replicate 3 fctrl }).map (fun t => t.queue.drop 3)
      = some [Params.ex1.romRecircOn] := by decide +kernel

/-- V-CQ4. -/
theorem test_recircOff_without_space :
    (after .recircOff { start with queue := List.replicate 4 fctrl }).map (fun t => (t.queue.length, t.lastCause))
      = some (4, .errQOvf) := by decide +kernel

/-- The word a host writes next is run by the next step, whatever else is scheduled: V-DI1 again. -/
theorem test_withFetchWord :
    (match step ({ start with schedule := [.hostReset] }.withFetchWord 32 0x00220102) with
      | .next t => some (t.regRead 0x11#8, t.schedule)
      | .fault _ => none
      | .refused _ => none) = some (0x00000122#32, [.hostReset]) := by decide +kernel

/-- V-HC4: a reserved opcode. -/
theorem test_badOp :
    (match issue 0x000000FF#32 start with
      | .next t => some (t.regRead 0x00#8)
      | .fault _ => none
      | .refused _ => none) = some 0x00002240#32 := by decide +kernel

/-- V-HC2. -/
theorem test_config_register : start.regRead 0x06#8 = 0x00790204#32 := by decide +kernel

/-- L1.3 and L1.5: a version string, and the scalings a reader applies. -/
theorem test_version_string : (versionValue ⟨8, 23⟩).text = ['2', '.', '3'] := by decide +kernel

/-! ### Witnesses: states and operands that meet a statement's hypotheses together -/

/-- The body of a frame, its checksum byte excluded. -/
def bodyOf (f : Frame) : List Byte := (f.drop 6).dropLast

/-- The checksum byte of a frame. -/
def checksumOf (f : Frame) : Byte := byteAt f (f.length - 1)

/-- What makes a state in INITIAL receive `f` next, as one decidable condition. -/
def Hears (s : State) (f rest : List Byte) : Prop :=
  s.rxState = .initial ∧ (headerOfBytes f).marker = Wire.marker ∧ (bodyOf f).length = (headerOfBytes f).length.toNat
    ∧ (bodyOf f).length ≤ Wire.lenMax
    ∧ s.source = headerBytes (headerOfBytes f) ++ (bodyOf f ++ checksumOf f :: rest)

theorem receives_of_hears {s : State} {f rest : List Byte} (h : Hears s f rest) :
    s.Receives (headerOfBytes f) (bodyOf f) (checksumOf f) rest :=
  ⟨h.2.2.1, h.2.2.2.1, .inl ⟨h.2.1, .inl ⟨h.1, [], by simp, h.2.2.2.2⟩⟩⟩

theorem accepts_of_hears {s : State} {f rest : List Byte} (h : Hears s f rest)
    (hc : frameClass s.cfg.params (headerOfBytes f) ≠ .foreignControl)
    (hm : checksum (headerBytes (headerOfBytes f) ++ bodyOf f) (6 + (bodyOf f).length)
      (seedFor s.cfg.params (headerOfBytes f).src) = checksumOf f) :
    s.Accepts (headerOfBytes f) (bodyOf f) (checksumOf f) rest :=
  ⟨receives_of_hears h, hc, hm⟩

theorem witness_DecodeEncodeRoundTrip : (Instr.register 15 0xFF#8).wellFormed = true := by decide

/-- One pair of words for each clause: an operation without operands, REGISTER and SET_TEMP. -/
theorem witness_UnusedFieldsAreIgnored :
    (opcField 0x12340001#32 = opcField 0x00000001#32 ∧ opcField 0x12340001#32 ≠ 0x02#8 ∧ opcField 0x12340001#32 ≠ 0x13#8)
      ∧ (opcField 0xFF22F102#32 = opcField 0x00220102#32 ∧ opcField 0xFF22F102#32 = 0x02#8
        ∧ slotField 0xFF22F102#32 = slotField 0x00220102#32 ∧ handleField 0xFF22F102#32 = handleField 0x00220102#32)
      ∧ (opcField 0x0FB9FF13#32 = opcField 0x0FB90013#32 ∧ opcField 0x0FB9FF13#32 = 0x13#8
        ∧ argField 0x0FB9FF13#32 = argField 0x0FB90013#32) := by decide

/-- The reserved values next to the assigned ones. -/
theorem witness_ReservedOpcodeRecordsBadOp :
    opcField 0x00000005#32 ∉ [0x00#8, 0x01#8, 0x02#8, 0x03#8, 0x04#8, 0x10#8, 0x11#8, 0x12#8, 0x13#8, 0x14#8, 0x15#8]
      ∧ opcField 0x00000016#32 ∉ [0x00#8, 0x01#8, 0x02#8, 0x03#8, 0x04#8, 0x10#8, 0x11#8, 0x12#8, 0x13#8, 0x14#8, 0x15#8] := by
  decide +kernel

/-- Each clause at the end of its range: 655, 655.3 and 655.35 assemble, 656, 655.4 and 655.36 do not. -/
theorem witness_PseudoOperationsExpand :
    (1 ≤ 1 ∧ 65535 ≤ 65535 ∧ 655 * 100 ≤ 65535 ∧ 3 ≤ 9 ∧ 655 * 100 + 3 * 10 ≤ 65535 ∧ 5 ≤ 9
        ∧ 655 * 100 + 3 * 10 + 5 ≤ 65535)
      ∧ (15 < 16 ∨ 255 < 0) ∧ (15 < 0 ∨ 255 < 256) ∧ 65535 < 65536 ∧ 65535 < 656 * 100
      ∧ 65535 < 655 * 100 + 4 * 10 ∧ 65535 < 655 * 100 + 3 * 10 + 6 ∧ 2 < [0, 0, 0].length := by decide

theorem witness_ConfigurationRomsAreLegal : RomName.presence ≠ .setTemp ∧ RomName.setTemp = .setTemp := by decide

/-- EX1 is legal, and with a queue of one frame it is not. -/
theorem witness_IllegalConfigurationIsRefused :
    LegalParams Params.ex1 ∧ ¬ LegalParams { Params.ex1 with queueDepth := 1 } := by
  refine ⟨⟨fun r => ?_, by decide, by decide, by decide, ?_, ?_, ?_, by decide, by decide⟩,
    fun h => absurd h.queue_depth.1 (by decide)⟩
  · cases r <;> constructor <;> decide +kernel
  · have : ∀ k : Fin 16, Params.ex1.ctrlSrc ≠ Params.ex1.statusSrcBase + BitVec.ofNat 8 k.val := by decide
    exact fun k hk => this ⟨k, by omega⟩
  · exact (waterRows_legal_iff _).1 (by decide +kernel)
  · exact (gasRows_legal_iff _).1 (by decide +kernel)

/-- A ROM entry, a rendering and ROM_PRESENCE. -/
theorem witness_OutboundFramesAreWellFormed :
    IsOutboundFrame Config.ex1.params Params.ex1.romTurnOn
      ∧ IsOutboundFrame Config.ex1.params (renderSetTemp Config.ex1.params 0xFF#8)
      ∧ IsOutboundFrame Config.ex1.params Params.ex1.romPresence :=
  ⟨.inl (.inl (by decide)), .inl (.inr ⟨0xFF#8, rfl⟩), .inr rfl⟩

theorem witness_ChecksumAccumulatorIsAByte :
    [0x01#8, 0x02#8].take 1 = [0x01#8, 0x03#8].take 1 ∧ [0x01#8, 0x02#8] ≠ [0x01#8, 0x03#8] ∧ 1 < 2 := by decide

theorem witness_ChecksumLastByteIsXor : 1 ≤ [0xF7#8].length := by decide

theorem witness_PollWithoutMarkerDiscards :
    (hearing [0x00#8, 0x13#8]).rxState = .initial ∧ ∀ b ∈ (hearing [0x00#8, 0x13#8]).source, b ≠ Wire.marker := by decide

/-- Each state of the framer one byte short. -/
theorem witness_UnderrunSuspendsPoll :
    (start.rxState = .initial ∧ start.source = [])
      ∧ (∃ s : State, s.rxState = .markerFound ∧ s.source = w0.take 5 ∧ s.source.length < 6)
      ∧ (∃ s : State, s.rxState = .headerParsed ∧ s.hdr = headerOfBytes w0 ∧ s.source = bodyOf w0
          ∧ s.source.length < s.hdr.length.toNat + 1)
      ∧ (∃ g rest, (hearing (0x13#8 :: w0.take 5)).rxState = .initial ∧ (∀ b ∈ g, b ≠ Wire.marker)
          ∧ (hearing (0x13#8 :: w0.take 5)).source = g ++ Wire.marker :: rest ∧ rest.length < 5)
      ∧ (hearing (w0.take 14)).FindsHeader (headerOfBytes w0) (bodyOf w0) ∧ (headerOfBytes w0).length.toNat ≤ 121
      ∧ (bodyOf w0).length < (headerOfBytes w0).length.toNat + 1 :=
  ⟨by decide, ⟨{ hearing (w0.take 5) with rxState := .markerFound }, by decide⟩,
    ⟨{ hearing (bodyOf w0) with rxState := .headerParsed, hdr := headerOfBytes w0 }, by decide⟩,
    ⟨[0x13#8], w0.tail.take 4, by decide⟩,
    ⟨by decide, .inl ⟨rfl, [], by simp, by decide⟩⟩, by decide, by decide⟩

/-- The header of the longest body that is accepted, still without a byte of it. -/
theorem witness_UnderrunSuspendsPoll_longest_body :
    (hearing [0xF7#8, 0x05#8, 0x50#8, 0x50#8, 0x90#8, 0x79#8]).FindsHeader ⟨0xF7#8, 0x05#8, 0x50#8, 0x50#8, 0x90#8, 0x79#8⟩ []
      ∧ (0x79#8 : Byte).toNat = 121 :=
  ⟨⟨by decide, .inl ⟨rfl, [], by simp, by decide⟩⟩, by decide⟩

/-- LONGHDR: a `length` of 122, in INITIAL and in MARKER_FOUND. -/
theorem witness_OverLongHeaderIsRejected :
    (hearing [0xF7#8, 0x05#8, 0x50#8, 0x50#8, 0x90#8, 0x7A#8]).FindsHeader ⟨0xF7#8, 0x05#8, 0x50#8, 0x50#8, 0x90#8, 0x7A#8⟩ []
      ∧ ({ hearing [0xF7#8, 0x05#8, 0x50#8, 0x50#8, 0x90#8, 0x7A#8] with rxState := .markerFound } : State).FindsHeader
        ⟨0xF7#8, 0x05#8, 0x50#8, 0x50#8, 0x90#8, 0x7A#8⟩ []
      ∧ 121 < (0x7A#8 : Byte).toNat :=
  ⟨⟨by decide, .inl ⟨rfl, [], by simp, by decide⟩⟩, ⟨by decide, .inr ⟨rfl, by decide⟩⟩, by decide⟩

theorem witness_GarbageBeforeAFrameIsDiscarded :
    (hearing w0).rxState = .initial ∧ ∀ b ∈ [0x00#8, 0x13#8], b ≠ Wire.marker := by decide

/-- Both ways a POLL suspends: holding a marker, and with no marker at all. -/
theorem witness_SuspendedPollIsInvisible :
    (hearing (w0.take 5)).PollSuspends ∧ (hearing [0x13#8]).PollSuspends :=
  ⟨.inl (by decide +kernel), .inr (by decide)⟩

theorem witness_FragmentationIndependence : start.source.length + (w0.take 5).length + (w0.drop 5).length < 16 := by decide

/-- V-FR5, from a status source; and a control frame with a wrong checksum byte. -/
theorem witness_ChecksumMismatchDropsFrame :
    ∃ f g : Frame, (hearing f).Receives (headerOfBytes f) (bodyOf f) (checksumOf f) []
      ∧ frameClass Config.ex1.params (headerOfBytes f) = .status
      ∧ ¬ ChecksumMatches Config.ex1.params (headerOfBytes f) (bodyOf f) (checksumOf f)
      ∧ (hearing g).Receives (headerOfBytes g) (bodyOf g) (checksumOf g) []
      ∧ frameClass Config.ex1.params (headerOfBytes g) = .control
      ∧ ¬ ChecksumMatches Config.ex1.params (headerOfBytes g) (bodyOf g) (checksumOf g) :=
  ⟨w0.set 14 0x61#8, fctrl.set 8 0xB8#8, receives_of_hears (by unfold Hears; decide +kernel), by decide +kernel,
    by unfold ChecksumMatches; decide +kernel, receives_of_hears (by unfold Hears; decide +kernel), by decide +kernel,
    by unfold ChecksumMatches; decide +kernel⟩

theorem witness_ForeignControlFrameIsIgnored :
    (hearing fsrc).Receives (headerOfBytes fsrc) (bodyOf fsrc) (checksumOf fsrc) []
      ∧ (headerOfBytes fsrc).dir = Config.ex1.params.dirControl ∧ (headerOfBytes fsrc).src ≠ Config.ex1.params.ctrlSrc :=
  ⟨receives_of_hears (by unfold Hears; decide +kernel), by decide +kernel, by decide +kernel⟩

theorem accepts_frames :
    ∀ f ∈ [w0, g1, udst, wshort, fpres, fctrl, s60, udir],
      (hearing f).Accepts (headerOfBytes f) (bodyOf f) (checksumOf f) [] := by
  intro f hf
  simp only [List.mem_cons, List.not_mem_nil, or_false] at hf
  rcases hf with rfl | rfl | rfl | rfl | rfl | rfl | rfl | rfl <;>
    exact accepts_of_hears (by unfold Hears; decide +kernel) (by decide +kernel) (by decide +kernel)

theorem witness_AcceptedFrameIsCounted : (hearing w0).Accepts (headerOfBytes w0) (bodyOf w0) (checksumOf w0) [] :=
  accepts_frames w0 (by simp)

/-- A water body of 7 bytes and a gas body of 24: one byte short of their field maps.  The checksum bytes are those of R100. -/
theorem witness_UndecodedStatusFrameNotifiesNobody :
    ((hearing udst).Accepts (headerOfBytes udst) (bodyOf udst) (checksumOf udst) []
        ∧ (headerOfBytes udst).dir = Config.ex1.params.dirStatus
        ∧ (headerOfBytes udst).dst ≠ Config.ex1.params.dstWater ∧ (headerOfBytes udst).dst ≠ Config.ex1.params.dstGas)
      ∧ (∃ f : Frame, (hearing f).Accepts (headerOfBytes f) (bodyOf f) (checksumOf f) []
        ∧ (headerOfBytes f).dir = Config.ex1.params.dirStatus
        ∧ (headerOfBytes f).dst = Config.ex1.params.dstWater ∧ (bodyOf f).length + 1 = waterMinLen WaterMap.ex1)
      ∧ (∃ f : Frame, (hearing f).Accepts (headerOfBytes f) (bodyOf f) (checksumOf f) []
        ∧ (headerOfBytes f).dir = Config.ex1.params.dirStatus
        ∧ (headerOfBytes f).dst = Config.ex1.params.dstGas ∧ (bodyOf f).length + 1 = gasMinLen GasMap.ex1) := by
  refine ⟨⟨accepts_frames udst (by simp), by decide +kernel⟩,
    ⟨[0xF7#8, 0x05#8, 0x50#8, 0x50#8, 0x90#8, 0x07#8] ++ List.replicate 7 0x00#8
      ++ [checksum ([0xF7#8, 0x05#8, 0x50#8, 0x50#8, 0x90#8, 0x07#8] ++ List.replicate 7 0x00#8) 13 0x4B#8], ?_,
      by decide +kernel⟩,
    ⟨[0xF7#8, 0x05#8, 0x51#8, 0x0F#8, 0x90#8, 0x18#8] ++ List.replicate 24 0x00#8
      ++ [checksum ([0xF7#8, 0x05#8, 0x51#8, 0x0F#8, 0x90#8, 0x18#8] ++ List.replicate 24 0x00#8) 30 0x4B#8], ?_,
      by decide +kernel⟩⟩
  all_goals exact accepts_of_hears (by unfold Hears; decide +kernel) (by decide +kernel) (by decide +kernel)

/-- A mask of four bits from bit 2, and the two ends of a mask's range: bit 7 alone and all eight bits. -/
theorem witness_ExtractedValueIsItsMaskedBits :
    MaskBits 0x3C#8 2 4 ∧ MaskBits 0x80#8 7 1 ∧ MaskBits 0xFF#8 0 8
      ∧ descLegal (.byte 120 0x3C#8) = true ∧ fieldValue [0xA7#8] (.byte 0 0x3C#8) = some ⟨4, 9⟩
      ∧ descLegal (.word 0 1) = true ∧ fieldValue [0xFF#8, 0xFF#8] (.word 0 1) = some ⟨16, 65535⟩
      ∧ byteAt [0xFF#8] 0 &&& 0x3C#8 = byteAt [0x3C#8] 0 &&& 0x3C#8 := by
  unfold MaskBits
  decide +kernel

theorem witness_FlagFieldIsItsBit :
    descLegal (.byte 120 0x80#8) = true ∧ kindAdmits .flag (.byte 120 0x80#8) = true := by decide +kernel

theorem witness_VersionDigitsAreDecimal : (⟨8, 99⟩ : FieldValue).raw ≤ 99 := by decide

/-- S60's source is outside the status set, so the second clause applies. -/
theorem witness_SeedFollowsSource :
    seedFor Params.ex1 0x60#8 ≠ 0x4B#8 ∧ seedFor Params.ex1 0x5F#8 = 0x4B#8 := by decide +kernel

theorem witness_UnknownDirectionIsValidatedAndIgnored :
    ∃ f : Frame, (hearing udir).Accepts (headerOfBytes udir) (bodyOf udir) (checksumOf udir) []
      ∧ (headerOfBytes udir).dir ≠ Config.ex1.params.dirStatus ∧ (headerOfBytes udir).dir ≠ Config.ex1.params.dirControl
      ∧ (hearing f).Receives (headerOfBytes f) (bodyOf f) (checksumOf f) [] ∧ (headerOfBytes f).dir = (headerOfBytes udir).dir
      ∧ ¬ ChecksumMatches Config.ex1.params (headerOfBytes f) (bodyOf f) (checksumOf f) :=
  ⟨udir.set 7 0x02#8, accepts_frames udir (by simp), by decide +kernel, by decide +kernel,
    receives_of_hears (by unfold Hears; decide +kernel), by decide +kernel, by unfold ChecksumMatches; decide +kernel⟩

theorem witness_RegisterBindsOneSlot : (14 : Fin 16) ≠ 15 := by decide

/-- A water and a gas frame of exactly the bytes their field maps need, for a registered and an unregistered slot, and a
source just past the last slot. -/
theorem witness_DecodedFrameReachesItsVisitor :
    ((hearing w0).Accepts (headerOfBytes w0) (bodyOf w0) (checksumOf w0) []
        ∧ (headerOfBytes w0).dst = Config.ex1.params.dstWater ∧ waterMinLen WaterMap.ex1 = (bodyOf w0).length
        ∧ slotOf Config.ex1.params (headerOfBytes w0).src = (0 : Fin 16).val ∧ (hearing w0).registered 0 = false)
      ∧ (((hearing w0).withVisitor 0 0x11#8).Accepts (headerOfBytes w0) (bodyOf w0) (checksumOf w0) []
        ∧ ((hearing w0).withVisitor 0 0x11#8).registered 0 = true)
      ∧ (((hearing g1).withVisitor 1 0x22#8).Accepts (headerOfBytes g1) (bodyOf g1) (checksumOf g1) []
        ∧ (headerOfBytes g1).dst = Config.ex1.params.dstGas ∧ gasMinLen GasMap.ex1 = (bodyOf g1).length
        ∧ slotOf Config.ex1.params (headerOfBytes g1).src = (1 : Fin 16).val
        ∧ ((hearing g1).withVisitor 1 0x22#8).registered 1 = true)
      ∧ ((hearing s60).Accepts (headerOfBytes s60) (bodyOf s60) (checksumOf s60) []
        ∧ slotOf Config.ex1.params (headerOfBytes s60).src = 16) :=
  ⟨⟨accepts_frames w0 (by simp), by decide +kernel⟩,
    ⟨accepts_of_hears (by unfold Hears; decide +kernel) (by decide +kernel) (by decide +kernel), by decide +kernel⟩,
    ⟨accepts_of_hears (by unfold Hears; decide +kernel) (by decide +kernel) (by decide +kernel), by decide +kernel⟩,
    accepts_frames s60 (by simp), by decide +kernel⟩

/-- A REGISTER scheduled next: not reset, a step that answers, and a table that changes. -/
theorem witness_OnlyRegisterWritesTheVisitorTable :
    ∃ s t : State, s.noReset ∧ step s = .next t ∧ t.visValid ≠ s.visValid :=
  ⟨{ start with schedule := [.operation 0x00220102#32] }, _, by unfold State.noReset; decide, rfl, by decide +kernel⟩

/-- Room for exactly two frames. -/
theorem witness_PairedCommandsQueueTwoFrames :
    ({ start with queue := [fctrl, fctrl] } : State).queue.length + 2 ≤ Config.ex1.params.queueDepth := by decide +kernel

/-- Room for exactly one. -/
theorem witness_RecircCommandsQueueOneFrame :
    ({ start with queue := [fctrl, fctrl, fctrl] } : State).queue.length + 1 ≤ Config.ex1.params.queueDepth := by
  decide +kernel

/-- One place short of each command's frames. -/
theorem witness_CommandsWithoutSpaceAreRefusedWhole :
    Config.ex1.params.queueDepth < ({ start with queue := List.replicate 3 fctrl } : State).queue.length + 2
      ∧ Config.ex1.params.queueDepth < ({ start with queue := List.replicate 4 fctrl } : State).queue.length + 1
      ∧ (12774#16 : Half).toNat ≤ 12774 := by decide +kernel

theorem witness_SetTempRendersItsTemplate :
    (12774#16 : Half).toNat ≤ 12774 ∧ ({ start with queue := List.replicate 3 fctrl } : State).queue.length + 1
      ≤ Config.ex1.params.queueDepth := by decide +kernel

theorem witness_SetTempOutOfRangeIsRefused : 255 < ((12775#16 : Half).toNat + 25) / 50 := by decide

/-- FPRES has the presence shape, FCTRL differs from it in the `length` byte only. -/
theorem witness_ControlFrameDetectsPresence :
    ((hearing fpres).Accepts (headerOfBytes fpres) (bodyOf fpres) (checksumOf fpres) []
        ∧ frameClass Config.ex1.params (headerOfBytes fpres) = .control
        ∧ PresenceShape Config.ex1.params (headerOfBytes fpres))
      ∧ ((hearing fctrl).Accepts (headerOfBytes fctrl) (bodyOf fctrl) (checksumOf fctrl) []
        ∧ frameClass Config.ex1.params (headerOfBytes fctrl) = .control
        ∧ ¬ PresenceShape Config.ex1.params (headerOfBytes fctrl)) := by
  refine ⟨⟨accepts_frames fpres (by simp), by decide +kernel, fun i h1 h2 => ?_⟩,
    ⟨accepts_frames fctrl (by simp), by decide +kernel, fun h => absurd (h 5 (by decide) (by decide)) (by decide +kernel)⟩⟩
  have : ∀ j : Fin 6, byteAt (headerBytes (headerOfBytes fpres)) j.val = byteAt Config.ex1.params.romPresence j.val := by
    decide +kernel
  exact this ⟨i, h2⟩

/-- No competitor, and in turn: a queued frame; an empty queue with the interval one frame away; an empty queue with the
interval two frames away.  W0 is a status frame, so it is no foreign presence frame. -/
theorem witness_OpportunityBeforeACompetitor :
    (∃ s : State, s.Accepts (headerOfBytes w0) (bodyOf w0) (checksumOf w0) [] ∧ s.otherPresent = false ∧ s.queue = [fctrl])
      ∧ (∃ s : State, s.Accepts (headerOfBytes w0) (bodyOf w0) (checksumOf w0) [] ∧ s.otherPresent = false ∧ s.queue = []
        ∧ min (s.hbCnt.toNat + 1) s.cfg.params.presenceInterval = s.cfg.params.presenceInterval)
      ∧ (∃ s : State, s.Accepts (headerOfBytes w0) (bodyOf w0) (checksumOf w0) [] ∧ s.otherPresent = false ∧ s.queue = []
        ∧ min (s.hbCnt.toNat + 1) s.cfg.params.presenceInterval < s.cfg.params.presenceInterval)
      ∧ ¬ IsForeignPresence Config.ex1.params (headerOfBytes w0) := by
  refine ⟨⟨{ hearing w0 with queue := [fctrl] }, ?_, rfl, rfl⟩, ⟨{ hearing w0 with hbCnt := 0x01#8 }, ?_, rfl, rfl, by decide +kernel⟩,
    ⟨hearing w0, accepts_frames w0 (by simp), rfl, rfl, by decide +kernel⟩, fun h => absurd h.1 (by decide +kernel)⟩
  all_goals exact accepts_of_hears (by unfold Hears; decide +kernel) (by decide +kernel) (by decide +kernel)

/-- FPRES, with and without a queued frame. -/
theorem witness_PresenceFrameIsAnOpportunity :
    IsForeignPresence Config.ex1.params (headerOfBytes fpres)
      ∧ (∃ s : State, s.Accepts (headerOfBytes fpres) (bodyOf fpres) (checksumOf fpres) [] ∧ s.queue = [fctrl])
      ∧ (∃ s : State, s.Accepts (headerOfBytes fpres) (bodyOf fpres) (checksumOf fpres) [] ∧ s.queue = []) :=
  ⟨⟨by decide +kernel, witness_ControlFrameDetectsPresence.1.2.2⟩,
    ⟨{ hearing fpres with queue := [fctrl] }, accepts_of_hears (by unfold Hears; decide +kernel) (by decide +kernel) (by decide +kernel), rfl⟩,
    ⟨hearing fpres, accepts_frames fpres (by simp), rfl⟩⟩

theorem witness_NoOpportunityAfterACompetitor :
    ∃ s : State, s.Accepts (headerOfBytes w0) (bodyOf w0) (checksumOf w0) [] ∧ s.otherPresent = true
      ∧ ¬ IsForeignPresence s.cfg.params (headerOfBytes w0) :=
  ⟨{ hearing w0 with otherPresent := true }, accepts_of_hears (by unfold Hears; decide +kernel) (by decide +kernel) (by decide +kernel), rfl,
    fun h => absurd h.1 (by decide +kernel)⟩

/-- A POLL scheduled next, over W0, with a frame queued: the step sends it. -/
theorem witness_TransmissionNeedsAnAcceptedFrame :
    ∃ s t : State, step s = .next t ∧ ∃ items, t.history = s.history ++ items ∧ txFrames items ≠ [] :=
  ⟨{ hearing w0 with queue := [fctrl], schedule := [.operation 0x00000001#32] }, _, rfl, [.tx fctrl], by decide +kernel,
    by decide +kernel⟩

theorem witness_QueueIsALosslessFifo :
    ∃ s t : State, s.noReset ∧ step s = .next t ∧ s.queue ≠ t.queue :=
  ⟨{ hearing w0 with queue := [fctrl], schedule := [.operation 0x00000001#32] }, _, by unfold State.noReset; decide, rfl,
    by decide +kernel⟩

theorem witness_OnlyAPresenceFrameSetsOtherPresent :
    ∃ s t : State, step s = .next t ∧ s.otherPresent = false ∧ t.otherPresent = true :=
  ⟨{ hearing fpres with schedule := [.operation 0x00000001#32] }, _, rfl, rfl, by decide +kernel⟩

/-- A state that has heard a competitor is legal, and no command of EX1 is ROM_PRESENCE: each is a byte longer. -/
theorem witness_ArbitrationIsSticky :
    ∃ s : State, s.Legal ∧ s.otherPresent = true ∧ .hostReset ∉ s.schedule ∧ s.schedule ≠ []
      ∧ ¬ IsCommandFrame s.cfg.params s.cfg.params.romPresence := by
  refine ⟨{ hearing fpres with otherPresent := true, schedule := [.operation 0x00000001#32] },
    ⟨?_, ?_, ?_, ?_, ?_, ?_⟩, rfl, by decide, by decide, ?_⟩
  · decide
  · intro f hf; cases hf
  · decide +kernel
  · intro h; cases h
  · intro h; cases h
  · intro f hf; cases hf
  · rintro (h | ⟨t, ht⟩)
    · exact absurd h (by decide +kernel)
    · have := congrArg List.length ht
      simp only [renderSetTemp, List.length_set] at this
      exact absurd this (by decide +kernel)

/-- The bounds of the two ranges. -/
theorem witness_UnassignedAddressesReadZero :
    ∀ a ∈ [0x07#8, 0x0F#8, 0x40#8, 0xFF#8], (0x07 ≤ a.toNat ∧ a.toNat ≤ 0x0F) ∨ 0x40 ≤ a.toNat := by decide

/-- A REGISTER word, and a word of the reserved opcode next to CLRERR. -/
theorem witness_StepRunsTheDecodedOperation :
    ({ start with schedule := [.operation 0x00220102#32, .hostReset] } : State).schedule = .operation 0x00220102#32 :: [.hostReset]
      ∧ decode 0x00220102#32 = .ok (.register 1 0x22#8) ∧ (Instr.register 1 0x22#8).wellFormed = true
      ∧ ({ start with schedule := [.operation 0x00000005#32] } : State).schedule = .operation 0x00000005#32 :: []
      ∧ opcField 0x00000005#32 ∉ [0x00#8, 0x01#8, 0x02#8, 0x03#8, 0x04#8, 0x10#8, 0x11#8, 0x12#8, 0x13#8, 0x14#8, 0x15#8] := by
  decide

theorem witness_StepServesTheOtherPorts :
    ({ start with schedule := [.arrival w0] } : State).schedule = .arrival w0 :: []
      ∧ ({ start with schedule := [.registerRead 0x06#8] } : State).schedule = .registerRead 0x06#8 :: []
      ∧ start.schedule = [] := by decide

theorem witness_ResetInputResetsTheBlock :
    ({ hearing w0 with schedule := [.hostReset, .arrival w1] } : State).schedule = .hostReset :: [.arrival w1] := by decide

theorem witness_RegistersReadZeroAfterReset : (0x05#8 : Byte) ≠ 0x06#8 ∧ (0x07#8 : Byte) ≠ 0x06#8 := by decide

/-- A legal state with a command queued and a marker held, and a step from it. -/
theorem witness_StepsKeepTheStateLegal :
    ∃ s t : State, s.Legal ∧ s.rxState = .markerFound ∧ s.queue ≠ [] ∧ step s = .next t := by
  refine ⟨{ hearing (w0.take 5) with
      rxState := .markerFound, queue := [Params.ex1.romTurnOn], schedule := [.operation 0x00000001#32] }, _,
    ⟨?_, ?_, ?_, ?_, ?_, ?_⟩, rfl, by decide +kernel, rfl⟩
  · decide +kernel
  · intro f hf
    rw [List.mem_singleton.mp hf]
    exact .inl (by decide +kernel)
  · decide +kernel
  · intro; decide
  · intro h; cases h
  · intro f hf; cases hf

theorem witness_StatusRegisterFields : ∃ s : State, s.Legal ∧ s.queue ≠ [] :=
  ⟨_, witness_StepsKeepTheStateLegal.choose_spec.choose_spec.1, witness_StepsKeepTheStateLegal.choose_spec.choose_spec.2.2.1⟩

theorem witness_ConfigurationAndHistoryAreKept : ∃ s t : State, step s = .next t ∧ s.history ≠ t.history :=
  ⟨{ hearing w0 with queue := [fctrl], schedule := [.operation 0x00000001#32] }, _, rfl, by decide +kernel⟩

end Sys2Proof.Tests
end

/-! The whole-machine rules: what a step other than POLL and reset keeps (`QuietStep`), the three kinds of step
(`step_kinds`), and the statements about every step that follow from them. -/

namespace Sys2Proof.Machine

/-! ### The three kinds of step -/

/-- What a step other than POLL and reset does: `added` joins the queue, `evs` the history, bytes may arrive, the visitor
table is written by REGISTER only, and the framer and the arbiter's own elements are left alone. -/
structure QuietStep (s t : State) (added : List Frame) (evs : List Event) : Prop where
  cfg : t.cfg = s.cfg
  schedule : t.schedule = s.schedule.tail
  rxState : t.rxState = s.rxState
  hdr : t.hdr = s.hdr
  otherPresent : t.otherPresent = s.otherPresent
  hbCnt : t.hbCnt = s.hbCnt
  source : s.source <+: t.source
  queue : t.queue = s.queue ++ added
  history : t.history = s.history ++ evs.map .ev
  added_length : added.length ≤ 2
  added_commands : ∀ f ∈ added, IsCommandFrame s.cfg.params f
  added_fits : added = [] ∨ s.queue.length + added.length ≤ s.cfg.params.queueDepth
  registered : ∀ k, s.registered k = true → t.registered k = true
  table : (t.visValid ≠ s.visValid ∨ t.visHandle ≠ s.visHandle) →
    ∃ w rest k h, s.schedule = .operation w :: rest ∧ decode w = .ok (.register k h)

/-- A step that leaves all the elements a `QuietStep` speaks of alone, but for bytes that arrive, is one. -/
theorem QuietStep.of_port {s t : State} (bytes : List Byte) (f : ErrFlags) (c : Cause) (reads : List (Byte × Word))
    (ht : t = { s with
      schedule := s.schedule.tail, source := s.source ++ bytes, flags := f, lastCause := c, reads := reads }) :
    QuietStep s t [] [] := by
  subst ht
  constructor <;> simp [State.registered]

/-- An operation other than POLL is a quiet step. -/
theorem QuietStep.of_exec {s t : State} {w : Word} {rest : List Input} {i : Instr} (hs : s.schedule = .operation w :: rest)
    (hd : decode w = .ok i) (hi : i ≠ .poll) (h : exec i (s.withSchedule rest) = .next t) :
    ∃ added evs, QuietStep s t added evs := by
  obtain ⟨added, evs, f, c, valid, handles, he, hlen, hcmd, hfits, htable, hreg, -⟩ :=
    exec_other i (s.withSchedule rest) hi
  rw [he] at h
  cases h
  refine ⟨added, evs, ?_⟩
  constructor
  case added_length => exact hlen
  case added_commands => exact hcmd
  case added_fits => exact hfits
  case registered => exact hreg
  case schedule => simp [hs]
  case table =>
    intro hne
    by_cases hr : ∃ k h, i = .register k h
    · obtain ⟨k, h, rfl⟩ := hr
      exact ⟨w, rest, k, h, hs, hd⟩
    · obtain ⟨hv, hh⟩ := htable fun k h e => hr ⟨k, h, e⟩
      exact absurd hne (by simp [hv, hh])
  all_goals simp

/-- An opportunity leaves the heartbeat alone or sets it back to 0 (R182). -/
theorem sendOne_hbCnt_le (s : State) : s.sendOne.hbCnt.toNat ≤ s.hbCnt.toNat := by
  obtain ⟨f, q, -, he⟩ | ⟨-, -, -, he⟩ | ⟨-, he⟩ := sendOne_cases s <;> simp [he]

theorem arbiter_hbCnt_le (s : State) (c : Completion) (hb : s.hbCnt.toNat ≤ s.cfg.params.presenceInterval) :
    (s.arbiter c).hbCnt.toNat ≤ s.cfg.params.presenceInterval := by
  obtain ⟨-, he⟩ | ⟨-, -, he⟩ | ⟨-, -, he⟩ | ⟨-, -, he⟩ := arbiter_cases s c <;> rw [he]
  · exact hb
  · exact hb
  · exact (sendOne_hbCnt_le s).trans hb
  · refine (sendOne_hbCnt_le _).trans ?_
    rw [heartbeat_toNat]
    exact Nat.min_le_right _ _

/-- A POLL keeps `hb_cnt` within PRESENCE_INTERVAL (R27, R182). -/
theorem poll_hbCnt_le (s : State) (hb : s.hbCnt.toNat ≤ s.cfg.params.presenceInterval) :
    s.poll.hbCnt.toNat ≤ s.cfg.params.presenceInterval := by
  obtain ⟨r, h, b, he⟩ | ⟨h, b, he⟩ | ⟨h, body, b, he⟩ := poll_cases s <;> rw [he]
  · exact hb
  · exact hb
  · rw [State.withRx_hbCnt, State.completeFrame]
    have hc := arbiter_hbCnt_le
      ({ s with rxState := .headerParsed, hdr := h, body := body, source := b } : State).classify.2
      ({ s with rxState := .headerParsed, hdr := h, body := body, source := b } : State).classify.1
    simp only [State.classify_hbCnt, State.classify_cfg] at hc
    exact hc hb

/-- What a POLL does outside the framer: `evs` are notified, then `sent` is transmitted, taken from the queue or, with
nothing queued, a single ROM_PRESENCE. -/
structure PollStep (s t : State) (evs : List Event) (sent : List Frame) : Prop where
  operation : ∃ w rest, s.schedule = .operation w :: rest ∧ decode w = .ok .poll
  cfg : t.cfg = s.cfg
  schedule : t.schedule = s.schedule.tail
  visValid : t.visValid = s.visValid
  visHandle : t.visHandle = s.visHandle
  history : t.history = s.history ++ (evs.map .ev ++ sent.map .tx)
  sticky : s.otherPresent = true → t.otherPresent = true ∧ t.hbCnt = s.hbCnt
  presence_set : s.otherPresent = false → t.otherPresent = true →
    IsForeignPresence s.cfg.params t.hdr ∧ t.counters.rxOk = s.counters.rxOk + 1#16 ∧ t.lastCause = .rxPresence
  transmission : s.queue = sent ++ t.queue
    ∨ (sent = [s.cfg.params.romPresence] ∧ s.queue = [] ∧ t.queue = [] ∧ s.otherPresent = false)
  heartbeat : s.hbCnt.toNat ≤ s.cfg.params.presenceInterval → t.hbCnt.toNat ≤ s.cfg.params.presenceInterval
  framer : (s.rxState = .markerFound → s.source.head? = some Wire.marker) →
    (s.rxState = .headerParsed → s.hdr.marker = Wire.marker ∧ s.bodyLen ≤ Wire.lenMax) →
    (t.rxState = .markerFound → t.source.head? = some Wire.marker)
      ∧ (t.rxState = .headerParsed → t.hdr.marker = Wire.marker ∧ t.bodyLen ≤ Wire.lenMax)

theorem PollStep.of_poll {s : State} {w : Word} {rest : List Input} (hs : s.schedule = .operation w :: rest)
    (hd : decode w = .ok .poll) : ∃ evs sent, PollStep s (s.withSchedule rest).poll evs sent := by
  obtain ⟨evs, sent, hhist, hcfg, -, hsticky, hvalid, hhandle, hsched, hset, hqueue⟩ :=
    poll_transmission (s.withSchedule rest)
  refine ⟨evs, sent, ?_⟩
  constructor
  case operation => exact ⟨w, rest, hs, hd⟩
  case cfg => exact hcfg
  case schedule => rw [hsched, hs]; rfl
  case visValid => exact hvalid
  case visHandle => exact hhandle
  case history => rw [hhist, List.append_assoc]; rfl
  case sticky => exact hsticky
  case presence_set => exact hset
  case transmission =>
    obtain ⟨rfl, hq⟩ | ⟨-, -, ⟨f, rfl, hq⟩ | hp⟩ := hqueue
    · exact .inl hq.symm
    · exact .inl hq
    · exact .inr hp
  case heartbeat => exact poll_hbCnt_le (s.withSchedule rest)
  case framer => exact poll_framer (s.withSchedule rest)

/-- Every step is a quiet one, the reset input, or a POLL. -/
theorem step_kinds {s t : State} (h : step s = .next t) :
    (∃ added evs, QuietStep s t added evs)
    ∨ (∃ rest, s.schedule = .hostReset :: rest ∧ t = (s.withSchedule rest).hostReset)
    ∨ (∃ evs sent, PollStep s t evs sent) := by
  obtain ⟨hs, rfl⟩ | ⟨rest, ⟨bytes, hs, rfl⟩ | ⟨a, hs, rfl⟩ | ⟨hs, rfl⟩ | ⟨w, hs, ⟨i, hd, he⟩ | ⟨e, -, rfl⟩⟩⟩ :=
    step_cases h
  · exact .inl ⟨[], [], .of_port [] t.flags t.lastCause t.reads (by rw [List.append_nil, hs, List.tail_nil, ← hs])⟩
  · exact .inl ⟨[], [], .of_port bytes s.flags s.lastCause s.reads (by rw [hs]; rfl)⟩
  · exact .inl ⟨[], [], .of_port [] s.flags s.lastCause (s.reads ++ [(a, s.regRead a)])
      (by rw [hs, List.append_nil]; rfl)⟩
  · exact .inr (.inl ⟨rest, hs, rfl⟩)
  · by_cases hi : i = .poll
    · subst hi
      rw [exec_poll] at he
      cases he
      exact .inr (.inr (PollStep.of_poll hs hd))
    · exact .inl (QuietStep.of_exec hs hd hi he)
  · exact .inl ⟨[], [], .of_port [] s.flags.raiseBadOp .errBadOp s.reads (by rw [hs, List.append_nil]; rfl)⟩

/-- A step that is not reset is a quiet one or a POLL. -/
theorem step_kinds_of_noReset {s t : State} (hn : s.noReset) (h : step s = .next t) :
    (∃ added evs, QuietStep s t added evs) ∨ (∃ evs sent, PollStep s t evs sent) := by
  obtain hq | ⟨rest, hs, -⟩ | hp := step_kinds h
  · exact .inl hq
  · exact absurd (congrArg List.head? hs) hn
  · exact .inr hp

/-! ### The configuration, the history and the visitor table -/

/-- Settles O60, by the kind of the step. -/
theorem configurationAndHistoryAreKept : Obligations.ConfigurationAndHistoryAreKept := by
  intro s t h
  obtain ⟨added, evs, hq⟩ | ⟨rest, -, rfl⟩ | ⟨evs, sent, hp⟩ := step_kinds h
  · exact ⟨hq.cfg, hq.history ▸ List.prefix_append _ _⟩
  · exact ⟨rfl, List.prefix_rfl⟩
  · exact ⟨hp.cfg, hp.history ▸ List.prefix_append _ _⟩

/-- Settles O34: POLL leaves the table alone, and of the quiet steps only REGISTER writes it. -/
theorem onlyRegisterWritesTheVisitorTable : Obligations.OnlyRegisterWritesTheVisitorTable := by
  intro s t hn h
  obtain ⟨added, evs, hq⟩ | ⟨evs, sent, hp⟩ := step_kinds_of_noReset hn h
  · exact ⟨hq.registered, hq.table⟩
  · refine ⟨fun k hk => ?_, fun hne => ?_⟩
    · rwa [State.registered, hp.visValid]
    · exact absurd hne (by simp [hp.visValid, hp.visHandle])

/-! ### The queue and the arbiter -/

/-- Settles O45: a POLL takes from the head of the queue, every other step appends to its tail. -/
theorem queueIsALosslessFifo : Obligations.QueueIsALosslessFifo := by
  intro s t hn h
  obtain ⟨added, evs, hq⟩ | ⟨evs, sent, hp⟩ := step_kinds_of_noReset hn h
  · exact ⟨[], added, evs.map .ev, hq.queue, hq.history, hq.added_length, hq.added_commands, .inl (by simp)⟩
  · obtain hsent | ⟨rfl, hs, ht, -⟩ := hp.transmission
    · exact ⟨sent, [], evs.map .ev ++ sent.map .tx, by simp [hsent], hp.history, by simp, by simp, .inl (by simp)⟩
    · exact ⟨[], [], _, by simp [hs, ht], hp.history, by simp, by simp, .inr ⟨rfl, by simp, hs⟩⟩

/-- Settles O46: a quiet step keeps `other_present` and reset clears it, so the step ran a POLL. -/
theorem onlyAPresenceFrameSetsOtherPresent : Obligations.OnlyAPresenceFrameSetsOtherPresent := by
  intro s t h hs ht
  obtain ⟨added, evs, hq⟩ | ⟨rest, -, rfl⟩ | ⟨evs, sent, hp⟩ := step_kinds h
  · rw [hq.otherPresent, hs] at ht
    cases ht
  · cases ht
  · exact ⟨hp.operation, hp.presence_set hs ht⟩

/-! ### Legal states -/

/-- Settles O58: every element the invariant speaks of is empty or 0. -/
theorem resetStateIsLegal : Obligations.ResetStateIsLegal := by
  have legal : ∀ c : Config, (State.resetWith c).Legal := fun c => by
    constructor <;> simp [State.resetWith]
  exact ⟨legal, legal _⟩

/-- A quiet step keeps the invariant: what it queues are command frames that fit, and it transmits nothing. -/
theorem QuietStep.legal {s t : State} {added : List Frame} {evs : List Event} (hq : QuietStep s t added evs) (hs : s.Legal) :
    t.Legal := by
  constructor
  case queue_fits =>
    rw [hq.queue, hq.cfg, List.length_append]
    obtain rfl | hfits := hq.added_fits
    · exact hs.queue_fits
    · exact hfits
  case queue_frames =>
    intro f hf
    rw [hq.queue, List.mem_append] at hf
    rw [hq.cfg]
    exact hf.elim (hs.queue_frames f) (hq.added_commands f)
  case heartbeat_bounded =>
    rw [hq.hbCnt, hq.cfg]
    exact hs.heartbeat_bounded
  case marker_unread =>
    intro hr
    obtain ⟨bytes, hsrc⟩ := hq.source
    rw [← hsrc, List.head?_append, hs.marker_unread (hq.rxState ▸ hr)]
    rfl
  case header_held =>
    intro hr
    rw [State.bodyLen, hq.hdr]
    exact hs.header_held (hq.rxState ▸ hr)
  case sent_frames =>
    intro f hf
    rw [hq.cfg]
    exact hs.sent_frames f (by simpa [hq.history] using hf)

/-- What a POLL transmits from a legal state is an outbound frame (R88). -/
theorem PollStep.sent_outbound {s t : State} {evs : List Event} {sent : List Frame} (hp : PollStep s t evs sent)
    (hs : s.Legal) : ∀ f ∈ sent, IsOutboundFrame s.cfg.params f := by
  intro f hf
  obtain hq | ⟨rfl, -⟩ := hp.transmission
  · exact .inl (hs.queue_frames f (hq ▸ List.mem_append_left _ hf))
  · exact .inr (List.mem_singleton.mp hf)

/-- What a POLL leaves in the queue was there before. -/
theorem PollStep.queue_suffix {s t : State} {evs : List Event} {sent : List Frame} (hp : PollStep s t evs sent) :
    t.queue <:+ s.queue := by
  obtain hq | ⟨-, -, ht, -⟩ := hp.transmission
  · exact ⟨sent, hq.symm⟩
  · exact ht ▸ List.nil_suffix

/-- A POLL keeps the invariant. -/
theorem PollStep.legal {s t : State} {evs : List Event} {sent : List Frame} (hp : PollStep s t evs sent) (hs : s.Legal) :
    t.Legal := by
  constructor
  case queue_fits =>
    rw [hp.cfg]
    exact hp.queue_suffix.length_le.trans hs.queue_fits
  case queue_frames =>
    intro f hf
    rw [hp.cfg]
    exact hs.queue_frames f (hp.queue_suffix.mem hf)
  case heartbeat_bounded =>
    rw [hp.cfg]
    exact hp.heartbeat hs.heartbeat_bounded
  case marker_unread => exact (hp.framer hs.marker_unread hs.header_held).1
  case header_held => exact (hp.framer hs.marker_unread hs.header_held).2
  case sent_frames =>
    intro f hf
    rw [hp.cfg]
    have hsplit : Item.tx f ∈ s.history ∨ f ∈ sent := by simpa [hp.history] using hf
    exact hsplit.elim (hs.sent_frames f) (hp.sent_outbound hs f)

/-- Reset keeps the invariant: it leaves the configuration and the history, and empties the rest. -/
theorem State.Legal.hostReset {s : State} (hs : s.Legal) (rest : List Input) : (s.withSchedule rest).hostReset.Legal := by
  constructor
  case sent_frames => exact hs.sent_frames
  all_goals simp

/-- Settles O59, by the kind of the step. -/
theorem stepsKeepTheStateLegal : Obligations.StepsKeepTheStateLegal := by
  intro s t hs h
  obtain ⟨added, evs, hq⟩ | ⟨rest, -, rfl⟩ | ⟨evs, sent, hp⟩ := step_kinds h
  · exact hq.legal hs
  · exact hs.hostReset rest
  · exact hp.legal hs

/-! ### Runs without reset -/

theorem runSteps_succ {s t : State} (n : Nat) (h : step s = .next t) : runSteps (n + 1) s = runSteps n t := by
  rw [runSteps, h]

/-- What makes arbitration sticky, kept by every step: the state is legal, a competitor is known, no reset is to come, and no
command of the configuration is ROM_PRESENCE (R26, R186). -/
structure State.HeardCompetitor (s : State) : Prop where
  legal : s.Legal
  present : s.otherPresent = true
  no_reset : .hostReset ∉ s.schedule
  presence_no_command : ¬ IsCommandFrame s.cfg.params s.cfg.params.romPresence

/-- While a competitor is known, what a POLL transmits comes from the queue, so it is not ROM_PRESENCE (R183, R186). -/
theorem PollStep.presence_not_sent {s t : State} {evs : List Event} {sent : List Frame} (hp : PollStep s t evs sent)
    (hs : s.HeardCompetitor) : s.cfg.params.romPresence ∉ sent := by
  intro hmem
  obtain hq | ⟨-, -, -, hf⟩ := hp.transmission
  · exact hs.presence_no_command (hs.legal.queue_frames _ (hq ▸ List.mem_append_left _ hmem))
  · rw [hs.present] at hf
    cases hf

/-- One step once a competitor is known. -/
theorem step_of_heardCompetitor {s t : State} (hs : s.HeardCompetitor) (h : step s = .next t) :
    t.HeardCompetitor ∧ t.cfg = s.cfg ∧ t.hbCnt = s.hbCnt
      ∧ ∃ items, t.history = s.history ++ items ∧ s.cfg.params.romPresence ∉ txFrames items := by
  have hn : s.noReset := fun hr => hs.no_reset (List.mem_of_head? hr)
  have hlegal : t.Legal := stepsKeepTheStateLegal s t hs.legal h
  obtain ⟨added, evs, hq⟩ | ⟨evs, sent, hp⟩ := step_kinds_of_noReset hn h
  · refine ⟨⟨hlegal, hq.otherPresent.trans hs.present, ?_, hq.cfg ▸ hs.presence_no_command⟩, hq.cfg, hq.hbCnt,
      evs.map .ev, hq.history, by simp⟩
    exact hq.schedule ▸ fun hr => hs.no_reset (List.mem_of_mem_tail hr)
  · obtain ⟨hpresent, hhb⟩ := hp.sticky hs.present
    refine ⟨⟨hlegal, hpresent, ?_, hp.cfg ▸ hs.presence_no_command⟩, hp.cfg, hhb,
      evs.map .ev ++ sent.map .tx, hp.history, by simpa using hp.presence_not_sent hs⟩
    exact hp.schedule ▸ fun hr => hs.no_reset (List.mem_of_mem_tail hr)

/-- Settles O47, by induction on the number of steps. -/
theorem arbitrationIsSticky : Obligations.ArbitrationIsSticky := by
  intro n s hl ho hr hc
  have hs : s.HeardCompetitor := ⟨hl, ho, hr, hc⟩
  clear hl ho hr hc
  induction n generalizing s with
  | zero => exact ⟨hs.present, rfl, [], by simp [runSteps], by simp⟩
  | succ n ih =>
    obtain ⟨t, h⟩ := step_total s
    obtain ⟨ht, hcfg, hhb, items, hhist, hitems⟩ := step_of_heardCompetitor hs h
    obtain ⟨hpresent, hhb', items', hhist', hitems'⟩ := ih t ht
    rw [runSteps_succ n h]
    refine ⟨hpresent, hhb'.trans hhb, items ++ items', by rw [hhist', hhist, List.append_assoc], ?_⟩
    rw [txFrames_append, List.mem_append]
    exact not_or.2 ⟨hitems, hcfg ▸ hitems'⟩

end Sys2Proof.Machine

/-! What the block may transmit, frame by frame, and what an accepted frame leaves in the state. -/

namespace Sys2Proof.Machine

/-! ### Outbound frames -/

/-- `commandWellFormed` on a frame of known length, clause by clause (R28, R56). -/
theorem commandWellFormed_of {p : Params} {f : Frame} {n : Nat} (hlen : f.length = n) (hmax : n ≤ 64)
    (hmarker : byteAt f 0 = Wire.marker) (hbody : (byteAt f 5).toNat + 7 = n)
    (haddr : byteAt f 2 = p.ctrlSrc ∧ byteAt f 4 = p.dirControl)
    (hsum : byteAt f (n - 1) = checksum f (n - 1) Wire.seedOther) : commandWellFormed p f = true := by
  subst hlen
  have hframe : f.length ≤ Wire.frameMax := hmax.trans (by decide)
  simp only [commandWellFormed, frameWellFormed, Bool.and_eq_true, beq_iff_eq, decide_eq_true_eq]
  exact ⟨⟨⟨⟨⟨⟨hmarker, hbody.symm⟩, hframe⟩, hmax⟩, haddr.1⟩, haddr.2⟩, hsum⟩

/-- A ROM other than the SET_TEMP template goes out as it is (R56). -/
theorem rom_commandWellFormed (c : Config) (r : RomName) (hr : r ≠ .setTemp) :
    commandWellFormed c.params (romOf c.params r) = true :=
  commandWellFormed_of rfl (rom_length c r).2 (rom_marker c r) (rom_bodyLength c r) (rom_address c r) (rom_checksum c r hr)

/-- A rendering keeps the header of its template: TEMP_OFFSET and the checksum byte lie behind it (R56 (f), R175). -/
theorem byteAt_renderSetTemp_header (c : Config) (t : Byte) (i : Nat) (hi : i < 6) :
    byteAt (renderSetTemp c.params t) i = byteAt (romOf c.params .setTemp) i := by
  obtain ⟨-, -, -, hkeep⟩ := renderSetTemp_spec c t
  obtain ⟨hlo, hhi⟩ := config_tempOffset c
  exact hkeep i (by omega) (by omega)

theorem renderSetTemp_commandWellFormed (c : Config) (t : Byte) :
    commandWellFormed c.params (renderSetTemp c.params t) = true := by
  obtain ⟨hlen, -, hsum, -⟩ := renderSetTemp_spec c t
  have header := byteAt_renderSetTemp_header c t
  refine commandWellFormed_of hlen (rom_length c .setTemp).2 ?_ ?_ ?_ hsum
  · rw [header 0 (by decide)]
    exact rom_marker c .setTemp
  · rw [header 5 (by decide)]
    exact rom_bodyLength c .setTemp
  · rw [header 2 (by decide), header 4 (by decide)]
    exact rom_address c .setTemp

/-- Settles O10: an outbound frame is one of the seven fixed ROMs or a rendering. -/
theorem outboundFramesAreWellFormed : Obligations.OutboundFramesAreWellFormed := by
  rintro c f ((hrom | ⟨t, rfl⟩) | rfl)
  · simp only [List.mem_cons, List.not_mem_nil, or_false] at hrom
    obtain rfl | rfl | rfl | rfl | rfl | rfl := hrom
    · exact rom_commandWellFormed c .turnOn (by decide)
    · exact rom_commandWellFormed c .turnOff (by decide)
    · exact rom_commandWellFormed c .hotPress (by decide)
    · exact rom_commandWellFormed c .hotRelease (by decide)
    · exact rom_commandWellFormed c .recircOn (by decide)
    · exact rom_commandWellFormed c .recircOff (by decide)
  · exact renderSetTemp_commandWellFormed c t
  · exact rom_commandWellFormed c .presence (by decide)

/-! ### An accepted frame -/

/-- Of the counters, the arbiter touches `tx_cnt` only (R184). -/
theorem arbiter_counters (s : State) (c : Completion) :
    ∃ n, (s.arbiter c).counters = { s.counters with tx := s.counters.tx + BitVec.ofNat 16 n } := by
  obtain ⟨-, he⟩ | ⟨-, -, he⟩ | ⟨-, -, he⟩ | ⟨-, -, he⟩ := arbiter_cases s c <;> rw [he]
  · exact ⟨0, by simp⟩
  · exact ⟨0, by simp⟩
  · exact sendOne_counters s
  · exact sendOne_counters s.heartbeat

/-- The completion of an accepted frame adds one to `rx_ok_cnt`, leaves the other receive counters and the flags, and may
advance `tx_cnt` (R141, R184). -/
theorem completeFrame_accepted (s : State) (hc : frameClass s.cfg.params s.hdr ≠ .foreignControl)
    (hv : s.checksumValid = true) :
    s.completeFrame.flags = s.flags
      ∧ ∃ n, s.completeFrame.counters
        = { s.counters with rxOk := s.counters.rxOk + 1#16, tx := s.counters.tx + BitVec.ofNat 16 n } := by
  obtain ⟨evs, c, o, he, -, -⟩ := classify_accepted s hc hv
  obtain ⟨n, hn⟩ := arbiter_counters s.classify.2 s.classify.1
  refine ⟨?_, n, ?_⟩
  · rw [State.completeFrame, State.arbiter_flags, he]
    rfl
  · rw [State.completeFrame, hn, he]
    rfl

/-- Settles O22: the framer holds the frame (`poll_receives`), its completion counts it (`completeFrame_accepted`). -/
theorem acceptedFrameIsCounted : Obligations.AcceptedFrameIsCounted := by
  rintro s h body cs rest ⟨hr, hc, hm⟩
  have hv := (afterFrame_checksumValid (s := s) (rest := rest) (r := .headerParsed) hr.1 hr.2.1).2 hm
  obtain ⟨hflags, n, hcounters⟩ := completeFrame_accepted ((s.afterFrame h body cs rest).withRx .headerParsed) hc hv
  refine ⟨s.poll, exec_poll s, ?_⟩
  rw [poll_receives s h body cs rest hr]
  simp [hflags, hcounters, writeBody]

end Sys2Proof.Machine

/-! The register map: the word of each address, and the fields of each word. -/

namespace Sys2Proof.Machine

/-! ### The word at each address -/

theorem regRead_visHandle (s : State) (k : Fin 16) : s.regRead (BitVec.ofNat 8 (0x10 + k.val)) = visHandleWord s k := by
  have hn : (BitVec.ofNat 8 (0x10 + k.val)).toNat = 0x10 + k.val := by
    rw [BitVec.toNat_ofNat]
    omega
  have hk : Fin.ofNat 16 (0x10 + k.val - 0x10) = k := Fin.ext (by simp)
  simp only [State.regRead, hn, hk]
  iterate 8 rw [if_neg (by omega)]
  rw [if_pos (by omega)]

theorem regRead_body (s : State) (k : Nat) (hk : k < 32) : s.regRead (BitVec.ofNat 8 (0x20 + k)) = bodyWord s k := by
  have hn : (BitVec.ofNat 8 (0x20 + k)).toNat = 0x20 + k := by
    rw [BitVec.toNat_ofNat]
    omega
  simp only [State.regRead, hn, Nat.add_sub_cancel_left]
  iterate 9 rw [if_neg (by omega)]
  rw [if_pos (by omega)]

theorem regRead_unassigned (s : State) (a : Byte) (ha : (0x07 ≤ a.toNat ∧ a.toNat ≤ 0x0F) ∨ 0x40 ≤ a.toNat) :
    s.regRead a = 0#32 := by
  simp only [State.regRead]
  iterate 7 rw [if_neg (by omega)]
  obtain ⟨-, hhi⟩ | hhi := ha
  · rw [if_pos (by omega)]
  · iterate 3 rw [if_neg (by omega)]

/-- Every address is one of the seven registers 0x00 to 0x06, a handle, four bytes of the body, or unassigned. -/
theorem address_cases (a : Byte) :
    a ∈ [0x00#8, 0x01#8, 0x02#8, 0x03#8, 0x04#8, 0x05#8, 0x06#8] ∨ (∃ k : Fin 16, a = BitVec.ofNat 8 (0x10 + k.val))
    ∨ (∃ k < 32, a = BitVec.ofNat 8 (0x20 + k)) ∨ (0x07 ≤ a.toNat ∧ a.toNat ≤ 0x0F) ∨ 0x40 ≤ a.toNat := by
  have heq : BitVec.ofNat 8 a.toNat = a := by simp
  by_cases hlow : a.toNat < 0x07
  · have hregs : ∀ n < 0x07, BitVec.ofNat 8 n ∈ [0x00#8, 0x01#8, 0x02#8, 0x03#8, 0x04#8, 0x05#8, 0x06#8] := by decide
    exact .inl (heq ▸ hregs _ hlow)
  by_cases hhandle : 0x10 ≤ a.toNat ∧ a.toNat < 0x20
  · exact .inr (.inl ⟨⟨a.toNat - 0x10, by omega⟩, by rw [Nat.add_sub_cancel' hhandle.1, heq]⟩)
  by_cases hbody : 0x20 ≤ a.toNat ∧ a.toNat < 0x40
  · exact .inr (.inr (.inl ⟨a.toNat - 0x20, by omega, by rw [Nat.add_sub_cancel' hbody.1, heq]⟩))
  · exact .inr (.inr (.inr (by omega)))

/-- Settles O52: the two ranges are the branches of the read port that answer 0. -/
theorem unassignedAddressesReadZero : Obligations.UnassignedAddressesReadZero := regRead_unassigned

/-! ### STATUS -/

section
variable (s : State)

theorem statusWord_rxState : (statusWord s).extractLsb' 0 2 = rxCode s.rxState := by
  rw [statusWord, BitVec.extractLsb'_append_eq_of_add_le (by decide)]
  exact BitVec.extractLsb'_eq_self

theorem statusWord_lastCause : (statusWord s).extractLsb' 8 8 = causeCode s.lastCause := by
  rw [statusWord]
  iterate 7 rw [BitVec.extractLsb'_append_eq_of_le]
  rw [BitVec.extractLsb'_append_eq_of_add_le]
  · exact BitVec.extractLsb'_eq_self
  all_goals decide

theorem statusWord_queue : (statusWord s).extractLsb' 16 8 = BitVec.ofNat 8 s.queue.length := by
  rw [statusWord]
  iterate 8 rw [BitVec.extractLsb'_append_eq_of_le]
  rw [BitVec.extractLsb'_append_eq_of_add_le]
  · exact BitVec.extractLsb'_eq_self
  all_goals decide

theorem statusWord_hbCnt : (statusWord s).extractLsb' 24 8 = s.hbCnt := by
  rw [statusWord]
  iterate 9 rw [BitVec.extractLsb'_append_eq_of_le]
  · exact BitVec.extractLsb'_eq_self
  all_goals decide

theorem statusWord_flags : (statusWord s).getLsbD 2 = s.otherPresent ∧ (statusWord s).getLsbD 3 = s.flags.qOvf
    ∧ (statusWord s).getLsbD 4 = s.flags.lenErr ∧ (statusWord s).getLsbD 5 = s.flags.csumErr
    ∧ (statusWord s).getLsbD 6 = s.flags.badOp ∧ (statusWord s).getLsbD 7 = s.flags.argErr := by
  simp only [statusWord, getLsbD_append_if]
  simp

end

/-- Settles O50: each field lies at its place in STATUS, and a legal queue is shorter than 256. -/
theorem statusRegisterFields : Obligations.StatusRegisterFields := by
  intro s
  have hword : s.regRead 0x00#8 = statusWord s := rfl
  obtain ⟨hop, hqo, hle, hce, hbo, hae⟩ := statusWord_flags s
  rw [hword]
  refine ⟨?_, hop, hqo, hle, hce, hbo, hae, ?_, statusWord_rxState s, statusWord_lastCause s, fun hs => ?_,
    statusWord_hbCnt s⟩
  · rw [statusWord_rxState]
    cases s.rxState <;> simp [rxCode]
  · rw [statusWord_lastCause]
    cases s.lastCause <;> simp [causeCode]
  · have hfits := hs.queue_fits
    have hdepth := (config_queueDepth s.cfg).2
    rw [statusWord_queue, BitVec.toNat_ofNat]
    omega

/-! ### The other registers -/

theorem visValidWord_bit (s : State) (k : Nat) (hk : k < 32) :
    (visValidWord s).getLsbD k = (decide (k < 16) && s.visValid.getLsbD k) := by
  rw [visValidWord, BitVec.getLsbD_setWidth]
  by_cases h : k < 16
  · simp [h, hk]
  · simp [h, BitVec.getLsbD_of_ge _ _ (Nat.le_of_not_lt h)]

theorem visHandleWord_eq (s : State) (k : Fin 16) :
    visHandleWord s k = (s.handleOf k).setWidth 32 ||| ((BitVec.ofBool (s.registered k)).setWidth 32 <<< 8) := by
  rw [visHandleWord]
  ext i hi
  simp only [BitVec.getElem_setWidth, getLsbD_append_if, BitVec.getElem_or, BitVec.getElem_shiftLeft]
  by_cases h : i < 8
  · simp [h]
  · simp [h, BitVec.getLsbD_of_ge _ _ (Nat.le_of_not_lt h)]

/-- The byte `f j` of four packed bytes lies at bits `8 * j` and up (R54). -/
theorem packBytes_byte_of_fun (f : Nat → Byte) (j : Nat) (hj : j < 4) :
    (packBytes (f 0) (f 1) (f 2) (f 3)).extractLsb' (8 * j) 8 = f j := by
  rw [packBytes_byte _ _ _ _ j hj]
  obtain rfl | rfl | rfl | rfl : j = 0 ∨ j = 1 ∨ j = 2 ∨ j = 3 := by omega
  all_goals rfl

theorem hdr0Word_byte (s : State) (j : Nat) (hj : j < 4) :
    (hdr0Word s).extractLsb' (8 * j) 8 = byteAt (headerBytes s.hdr) j :=
  packBytes_byte_of_fun (byteAt (headerBytes s.hdr)) j hj

/-- Bytes 2 and 3 of HDR1 read 0, as the header's bytes past its end do (R41). -/
theorem hdr1Word_byte (s : State) (j : Nat) (hj : j < 4) :
    (hdr1Word s).extractLsb' (8 * j) 8 = byteAt (headerBytes s.hdr) (4 + j) :=
  packBytes_byte_of_fun (fun i => byteAt (headerBytes s.hdr) (4 + i)) j hj

theorem bodyWord_byte (s : State) (k j : Nat) (hj : j < 4) :
    (bodyWord s k).extractLsb' (8 * j) 8 = byteAt s.body.toList (4 * k + j) :=
  packBytes_byte_of_fun (fun i => byteAt s.body.toList (4 * k + i)) j hj

theorem configWord_fields (c : Config) :
    ((configWord c.params).extractLsb' 0 8).toNat = c.params.queueDepth
    ∧ ((configWord c.params).extractLsb' 8 8).toNat = c.params.presenceInterval
    ∧ (configWord c.params).extractLsb' 16 16 = 121#16 := by
  have hdepth := (config_queueDepth c).2
  have hinterval := (config_presenceInterval c).2
  refine ⟨?_, ?_, ?_⟩
  · rw [configWord, packBytes_byte _ _ _ _ 0 (by decide), if_pos rfl, BitVec.toNat_ofNat]
    omega
  · rw [configWord, packBytes_byte _ _ _ _ 1 (by decide), if_neg (by decide), if_pos rfl, BitVec.toNat_ofNat]
    omega
  · rw [configWord, packBytes]
    iterate 2 rw [BitVec.extractLsb'_append_eq_of_le]
    · rfl
    all_goals decide

/-- Settles O51, register by register. -/
theorem registerMapFields : Obligations.RegisterMapFields := by
  intro s
  obtain ⟨hdepth, hinterval, hlenMax⟩ := configWord_fields s.cfg
  refine ⟨visValidWord_bit s, halves_low _ _, halves_high _ _, halves_low _ _, halves_high _ _, hdr0Word_byte s,
    hdr1Word_byte s, hdepth, hinterval, hlenMax, fun k => ?_, fun k j hk hj => ?_⟩
  · rw [regRead_visHandle, visHandleWord_eq]
  · rw [regRead_body s k hk, bodyWord_byte s k j hj]

/-! ### After reset -/

section
variable (c : Config)

theorem statusWord_resetWith : statusWord (State.resetWith c) = 0#32 := by
  simp only [statusWord, State.resetWith, rxCode, causeCode, List.length_nil]
  rfl

theorem visValidWord_resetWith : visValidWord (State.resetWith c) = 0#32 := rfl

theorem rxCntWord_resetWith : rxCntWord (State.resetWith c) = 0#32 := by
  simp only [rxCntWord, State.resetWith]
  rfl

theorem errCntWord_resetWith : errCntWord (State.resetWith c) = 0#32 := by
  simp only [errCntWord, State.resetWith]
  rfl

theorem hdr0Word_resetWith : hdr0Word (State.resetWith c) = 0#32 := by
  simp only [hdr0Word, State.resetWith]
  rfl

theorem hdr1Word_resetWith : hdr1Word (State.resetWith c) = 0#32 := by
  simp only [hdr1Word, State.resetWith]
  rfl

theorem visHandleWord_resetWith (k : Fin 16) : visHandleWord (State.resetWith c) k = 0#32 := by
  have hreg : (State.resetWith c).registered k = false := by simp [State.registered, State.resetWith]
  have hhandle : (State.resetWith c).handleOf k = 0#8 := by simp [State.handleOf, State.resetWith]
  rw [visHandleWord, hreg, hhandle]
  rfl

theorem bodyWord_resetWith (k : Nat) : bodyWord (State.resetWith c) k = 0#32 := by
  have hbody : (State.resetWith c).body.toList = List.replicate 128 0#8 := Vector.toList_replicate
  have hbyte : ∀ i, byteAt (State.resetWith c).body.toList i = 0#8 := fun i => by
    rw [hbody, byteAt, List.getD_eq_getElem?_getD, List.getElem?_getD_replicate_default_eq]
  simp only [bodyWord, hbyte]
  rfl

end

theorem regRead_resetWith (c : Config) (a : Byte) (ha : a ≠ 0x06#8) : (State.resetWith c).regRead a = 0#32 := by
  obtain hreg | ⟨k, rfl⟩ | ⟨k, hk, rfl⟩ | hnone := address_cases a
  · simp only [List.mem_cons, List.not_mem_nil, or_false] at hreg
    obtain rfl | rfl | rfl | rfl | rfl | rfl | rfl := hreg
    · exact statusWord_resetWith c
    · exact visValidWord_resetWith c
    · exact rxCntWord_resetWith c
    · exact errCntWord_resetWith c
    · exact hdr0Word_resetWith c
    · exact hdr1Word_resetWith c
    · exact absurd rfl ha
  · rw [regRead_visHandle, visHandleWord_resetWith]
  · rw [regRead_body _ k hk, bodyWord_resetWith]
  · exact regRead_unassigned _ a hnone

/-- Settles O57: `State.reset` is the reset state of the configuration installed. -/
theorem registersReadZeroAfterReset : Obligations.RegistersReadZeroAfterReset :=
  fun c a ha => ⟨regRead_resetWith c a ha, regRead_resetWith Config.installed a ha⟩

end Sys2Proof.Machine

/-! What a configuration guarantees of its ROMs, how a word at the operation port runs, and what one POLL leaves in the
history and the counters. -/

namespace Sys2Proof.Machine

/-! ### The ROMs of a configuration -/

/-- Settles O7, constraint by constraint of R56. -/
theorem configurationRomsAreLegal : Obligations.ConfigurationRomsAreLegal := by
  intro c r
  obtain ⟨hmin, hmax⟩ := rom_length c r
  obtain ⟨hsrc, hdir⟩ := rom_address c r
  refine ⟨hmin, hmax, rom_marker c r, rom_bodyLength c r, hsrc, hdir, rom_checksum c r, ?_⟩
  rintro rfl
  obtain ⟨hlo, hhi⟩ := config_tempOffset c
  exact ⟨hlo, Nat.le_sub_of_add_le hhi⟩

/-! ### A word at the operation port -/

theorem step_operation {s : State} {w : Word} {rest : List Input} (hs : s.schedule = .operation w :: rest) :
    step s = issue w (s.withSchedule rest) := by
  rw [step, hs]
  rfl

theorem issue_of_decode_ok {w : Word} {i : Instr} (s : State) (hd : decode w = .ok i) : issue w s = exec i s := by
  rw [issue, hd]

theorem issue_of_decode_error {w : Word} {e : DecodeError} (s : State) (hd : decode w = .error e) :
    issue w s = .next s.badOp := by
  rw [issue, hd]

/-- The assigned values of OPC (R82). -/
theorem opcodeOf_mem_assigned (i : Instr) :
    opcodeOf i ∈ [0x00#8, 0x01#8, 0x02#8, 0x03#8, 0x04#8, 0x10#8, 0x11#8, 0x12#8, 0x13#8, 0x14#8, 0x15#8] := by
  cases i <;> simp [opcodeOf]

/-- Settles O53: the step hands the word to the port, which goes by what the word decodes to. -/
theorem stepRunsTheDecodedOperation : Obligations.StepRunsTheDecodedOperation := by
  intro s w rest hs
  rw [step_operation hs]
  refine ⟨fun i hd _ => issue_of_decode_ok _ hd, fun hw => ?_⟩
  have hreserved : ∀ i, opcField w ≠ opcodeOf i := fun i he => hw (he ▸ opcodeOf_mem_assigned i)
  rw [issue_of_decode_error _ (decode_reserved w hreserved)]
  rfl

/-! ### One POLL, one attempt -/

/-- `t` is `s` after the frames `txs`, at most one, went out: they end the history, and `tx_cnt` counts them (R184). -/
structure Transmits (s t : State) (txs : List Frame) : Prop where
  at_most_one : txs.length ≤ 1
  hdr : t.hdr = s.hdr
  history : t.history = s.history ++ txs.map .tx
  counters : t.counters = { s.counters with tx := s.counters.tx + BitVec.ofNat 16 txs.length }

theorem Transmits.refl (s : State) : Transmits s s [] := by
  constructor <;> simp

theorem sendOne_transmits (s : State) : ∃ txs, Transmits s s.sendOne txs := by
  obtain ⟨f, q, -, he⟩ | ⟨-, -, -, he⟩ | ⟨-, he⟩ := sendOne_cases s <;> rw [he]
  · exact ⟨[f], Nat.le_refl 1, rfl, rfl, rfl⟩
  · exact ⟨[s.cfg.params.romPresence], Nat.le_refl 1, rfl, rfl, rfl⟩
  · exact ⟨[], .refl s⟩

/-- The heartbeat touches neither the history nor the counters, so what the arbiter transmits is what its opportunity
does (R182). -/
theorem arbiter_transmits (s : State) (c : Completion) : ∃ txs, Transmits s (s.arbiter c) txs := by
  obtain ⟨-, he⟩ | ⟨-, -, he⟩ | ⟨-, -, he⟩ | ⟨-, -, he⟩ := arbiter_cases s c <;> rw [he]
  · exact ⟨[], .refl s⟩
  · exact ⟨[], .refl s⟩
  · exact sendOne_transmits s
  · obtain ⟨txs, hone, hhdr, hhist, hcount⟩ := sendOne_transmits s.heartbeat
    exact ⟨txs, hone, hhdr, hhist, hcount⟩

/-- `t` is `s` after at most one frame attempt ended: the events `evs` of the frame held are emitted, and `ok`, `csum` and
`len` are what is added to the receive counters (R63, R111, R210). -/
structure Attempt (s t : State) (evs : List Event) (ok csum len : Nat) : Prop where
  own_events : s.OwnEvents evs
  at_most_one : ok + csum + len ≤ 1
  hdr : t.hdr = s.hdr
  history : t.history = s.history ++ evs.map .ev
  counters : t.counters = ⟨s.counters.rxOk + BitVec.ofNat 16 ok, s.counters.csumErr + BitVec.ofNat 16 csum,
    s.counters.lenErr + BitVec.ofNat 16 len, s.counters.tx⟩

/-- An attempt without an event, from what it leaves in the three elements an attempt writes. -/
theorem Attempt.of_silent {s t : State} {ok csum len : Nat} (hone : ok + csum + len ≤ 1) (hhdr : t.hdr = s.hdr)
    (hhist : t.history = s.history)
    (hcount : t.counters = ⟨s.counters.rxOk + BitVec.ofNat 16 ok, s.counters.csumErr + BitVec.ofNat 16 csum,
      s.counters.lenErr + BitVec.ofNat 16 len, s.counters.tx⟩) : Attempt s t [] ok csum len :=
  ⟨by simp [State.OwnEvents], hone, hhdr, by simp [hhist], hcount⟩

/-- Classification counts a mismatch or an accepted frame, and a foreign control frame not at all (R140 to R144). -/
theorem classify_attempt (s : State) : ∃ evs ok csum, Attempt s s.classify.2 evs ok csum 0 := by
  obtain ⟨-, he⟩ | ⟨-, -, he⟩ | ⟨hv, hkind⟩ := classify_cases s
  · rw [he]
    exact ⟨[], 0, 0, .of_silent (by decide) rfl rfl (by simp)⟩
  · rw [he]
    exact ⟨[], 0, 1, .of_silent (by decide) rfl rfl (by simp [State.csumMismatch, Counters.bumpCsumErr])⟩
  · have hc : frameClass s.cfg.params s.hdr ≠ .foreignControl := by
      obtain ⟨hk, -⟩ | ⟨hk, -⟩ | ⟨hk, -⟩ := hkind <;> simp [hk]
    obtain ⟨evs, c, o, he, hown, -⟩ := classify_accepted s hc hv
    rw [he]
    exact ⟨evs, 1, 0, hown, by decide, rfl, rfl, by simp [Counters.bumpRxOk]⟩

/-- A POLL moves the framer's own registers to what it has read, ends at most one attempt there, and then transmits
(R111, R121). -/
theorem poll_attempt (s : State) : ∃ r h body b v evs ok csum len txs,
    Attempt { s with rxState := r, hdr := h, body := body, source := b } v evs ok csum len ∧ Transmits v s.poll txs := by
  obtain ⟨r, h, b, he⟩ | ⟨h, b, he⟩ | ⟨h, body, b, he⟩ := poll_cases s
  · exact ⟨r, h, s.body, b, s.poll, [], 0, 0, 0, [], .of_silent (by decide) (by rw [he]) (by rw [he]) (by simp [he]),
      .refl _⟩
  · exact ⟨.initial, h, s.body, b, s.poll, [], 0, 0, 1, [], .of_silent (by decide) (by rw [he]) (by rw [he])
      (by simp [he]), .refl _⟩
  · obtain ⟨evs, ok, csum, hattempt⟩ :=
      classify_attempt { s with rxState := .headerParsed, hdr := h, body := body, source := b }
    obtain ⟨txs, hone, hhdr, hhist, hcount⟩ := arbiter_transmits
      ({ s with rxState := .headerParsed, hdr := h, body := body, source := b } : State).classify.2
      ({ s with rxState := .headerParsed, hdr := h, body := body, source := b } : State).classify.1
    rw [he]
    exact ⟨_, h, body, b, _, evs, ok, csum, 0, txs, hattempt, hone, hhdr, hhist, hcount⟩

/-- Settles O17: the attempt of the POLL (`poll_attempt`), then its transmission. -/
theorem onePollOneAttempt : Obligations.OnePollOneAttempt := by
  intro s
  obtain ⟨r, h, body, b, v, evs, ok, csum, len, txs, hattempt, hsend⟩ := poll_attempt s
  obtain ⟨⟨hevs, hown⟩, hone, hhdr, hhist, hcount⟩ := hattempt
  refine ⟨s.poll, exec_poll s, evs, txs, ok, csum, len, ?_, hevs, hsend.at_most_one, hone, ?_, ?_⟩
  · rw [hsend.history, hhist]
  · rw [hsend.counters, hcount]
  · rw [hsend.hdr, hhdr]
    exact hown

end Sys2Proof.Machine

/-! The encoding: what a word decodes to, in both directions, the words of the reserved opcodes, the lines of the assembler,
and what a configuration guarantees of its parameters. -/

namespace Sys2Proof.Machine

/-! ### Decoding goes by OPC, then reads the operands of that row (R80 to R82) -/

/-- The operation of the row of `i` in the table of R82, its operands read from the fields of `w` (R81). -/
def readOperands (i : Instr) (w : Word) : Instr :=
  match i with
  | .register _ _ => .register (slotField w) (handleField w)
  | .setTemp _ => .setTemp (argField w)
  | .nop => .nop
  | .poll => .poll
  | .commLoss => .commLoss
  | .clrerr => .clrerr
  | .turnOn => .turnOn
  | .turnOff => .turnOff
  | .hotButton => .hotButton
  | .recircOn => .recircOn
  | .recircOff => .recircOff

/-- The decoder, row by row of the table of R82. -/
theorem decode_of_opcField {w : Word} {i : Instr} (h : opcField w = opcodeOf i) : decode w = .ok (readOperands i w) := by
  rw [decode, h]
  cases i <;> rfl

@[simp] theorem opcodeOf_readOperands (i : Instr) (w : Word) : opcodeOf (readOperands i w) = opcodeOf i := by
  cases i <;> rfl

/-- Reading the operands of `i` from `w` gives `i` back exactly when the fields hold them. -/
theorem readOperands_eq_self_iff (i : Instr) (w : Word) :
    readOperands i w = i ↔
      (∀ slot handle, i = .register slot handle → slotField w = slot ∧ handleField w = handle)
        ∧ (∀ centi, i = .setTemp centi → argField w = centi) := by
  cases i with
  | register slot handle => simp [readOperands]
  | setTemp centi => simp [readOperands]
  | _ => simp [readOperands]

theorem readOperands_idem (i : Instr) (w : Word) : readOperands (readOperands i w) w = readOperands i w := by
  cases i <;> rfl

/-- Every OPC is that of an operation or of none. -/
theorem opcField_assigned_or_reserved (w : Word) :
    (∃ i, opcField w = opcodeOf i) ∨ ∀ i, opcField w ≠ opcodeOf i := by
  rw [← not_exists]
  exact Classical.em _

theorem decode_eq_ok_iff (w : Word) (i : Instr) :
    decode w = .ok i ↔ opcField w = opcodeOf i ∧ readOperands i w = i := by
  constructor
  · intro hd
    obtain ⟨j, hj⟩ | hreserved := opcField_assigned_or_reserved w
    · rw [decode_of_opcField hj, Except.ok.injEq] at hd
      subst hd
      exact ⟨by rw [hj, opcodeOf_readOperands], readOperands_idem j w⟩
    · rw [decode_reserved w hreserved] at hd
      cases hd
  · rintro ⟨hopc, hfields⟩
    rw [decode_of_opcField hopc, hfields]

/-- Settles O2. -/
theorem decodeFollowsOpcodeMap : Obligations.DecodeFollowsOpcodeMap := by
  intro w i
  rw [decode_eq_ok_iff, readOperands_eq_self_iff]

/-- The word of an operation holds its operands, each in its field (R81, R86). -/
theorem readOperands_encode (i : Instr) : readOperands i (encode i) = i := by
  cases i with
  | register slot handle => rw [readOperands, slotField_encode, handleField_encode]
  | setTemp centi => rw [readOperands, argField_encode]
  | _ => rfl

/-- Settles O1: OPC and the operands of the word are those of the operation. -/
theorem decodeEncodeRoundTrip : Obligations.DecodeEncodeRoundTrip :=
  fun i _ => (decode_eq_ok_iff (encode i) i).2 ⟨opcField_encode i, readOperands_encode i⟩

/-- The operands of a row are read from the fields R81 gives it and from no other. -/
theorem readOperands_congr {w v : Word} (i : Instr)
    (hregister : opcodeOf i = 0x02#8 → slotField w = slotField v ∧ handleField w = handleField v)
    (hsetTemp : opcodeOf i = 0x13#8 → argField w = argField v) : readOperands i w = readOperands i v := by
  cases i with
  | register slot handle =>
    obtain ⟨hslot, hhandle⟩ := hregister rfl
    rw [readOperands, readOperands, hslot, hhandle]
  | setTemp centi => rw [readOperands, readOperands, hsetTemp rfl]
  | _ => rfl

/-- Settles O3: the two words decode alike, by the row of their OPC or as the same reserved opcode, and the port goes by
what a word decodes to. -/
theorem unusedFieldsAreIgnored : Obligations.UnusedFieldsAreIgnored := by
  intro w v hopc hregister hsetTemp
  have hdecode : decode w = decode v := by
    obtain ⟨i, hi⟩ | hreserved := opcField_assigned_or_reserved w
    · rw [hi] at hopc hregister hsetTemp
      rw [decode_of_opcField hi, decode_of_opcField hopc.symm, readOperands_congr i hregister hsetTemp]
    · rw [decode_reserved w hreserved, decode_reserved v (hopc ▸ hreserved), hopc]
  exact ⟨hdecode, fun s => by rw [issue, issue, hdecode]⟩

/-- Settles O4: a reserved OPC is that of no operation; the reserved values are counted by decoding all 256. -/
theorem reservedOpcodeRecordsBadOp : Obligations.ReservedOpcodeRecordsBadOp := by
  refine ⟨fun w s hw => ?_, by decide +kernel⟩
  have hreserved : ∀ i, opcField w ≠ opcodeOf i := fun i he => hw (he ▸ opcodeOf_mem_assigned i)
  have hdecode := decode_reserved w hreserved
  exact ⟨hdecode, issue_of_decode_error s hdecode⟩

/-- Settles O5, word by word. -/
theorem decodeSampleWords : Obligations.DecodeSampleWords :=
  ⟨by decide, by decide, by decide, by decide, by decide, by decide⟩

/-! ### The lines of the assembler (R86, R87) -/

theorem assembleLine_of_wellFormed {l : AsmLine} (h : l.wellFormed = true) :
    assembleLine l = some ((expandLine l).map encode) := if_pos h

theorem assembleLine_eq_none_iff (l : AsmLine) : assembleLine l = none ↔ l.wellFormed = false := by
  simp [assembleLine]

theorem assembleLine_setTemp {centi : Nat} (h : centi ≤ 65535) :
    assembleLine (.setTemp centi) = some [encode (.setTemp (BitVec.ofNat 16 centi))] :=
  assembleLine_of_wellFormed (decide_eq_true h)

theorem assembleLine_polln {n : Nat} (h : 1 ≤ n) : assembleLine (.polln n) = some (List.replicate n 0x00000001#32) := by
  rw [assembleLine_of_wellFormed (l := .polln n) (decide_eq_true h), expandLine, List.map_replicate]
  rfl

theorem setTempC_wellFormed_iff (whole : Nat) (frac : List Nat) :
    (AsmLine.setTempC whole frac).wellFormed = true ↔
      frac.length ≤ 2 ∧ (∀ d ∈ frac, d ≤ 9) ∧ centiOfDecimal whole frac ≤ 65535 := by
  simp [AsmLine.wellFormed, and_assoc]

/-- A SET_TEMP_C line in range is the SET_TEMP line of its value in hundredths (R87 (a)). -/
theorem assembleLine_setTempC {whole : Nat} {frac : List Nat} (hlen : frac.length ≤ 2) (hdigits : ∀ d ∈ frac, d ≤ 9)
    (hmax : centiOfDecimal whole frac ≤ 65535) :
    assembleLine (.setTempC whole frac) = assembleLine (.setTemp (centiOfDecimal whole frac)) := by
  rw [assembleLine_setTemp hmax, assembleLine_of_wellFormed ((setTempC_wellFormed_iff whole frac).2 ⟨hlen, hdigits, hmax⟩)]
  rfl

/-- A SET_TEMP_C line above 655.35, or with a third fraction digit, is not assembled. -/
theorem assembleLine_setTempC_eq_none {whole : Nat} {frac : List Nat}
    (h : 2 < frac.length ∨ 65535 < centiOfDecimal whole frac) : assembleLine (.setTempC whole frac) = none := by
  rw [assembleLine_eq_none_iff, ← Bool.not_eq_true, setTempC_wellFormed_iff]
  rintro ⟨hlen, -, hmax⟩
  omega

theorem assembleLine_setTemp_eq_none {centi : Nat} (h : 65535 < centi) : assembleLine (.setTemp centi) = none :=
  (assembleLine_eq_none_iff _).2 (decide_eq_false (Nat.not_le.2 h))

theorem assembleLine_register_eq_none {slot handle : Nat} (h : 15 < slot ∨ 255 < handle) :
    assembleLine (.register slot handle) = none := by
  rw [assembleLine_eq_none_iff, AsmLine.wellFormed, ← Bool.not_eq_true, Bool.and_eq_true, decide_eq_true_eq,
    decide_eq_true_eq]
  omega

/-- Settles O6: one lemma per line, and `centiOfDecimal` evaluated at no, one and two fraction digits. -/
theorem pseudoOperationsExpand : Obligations.PseudoOperationsExpand := by
  refine ⟨fun _ => assembleLine_polln, fun _ => assembleLine_setTemp, ?_, ?_, ?_,
    fun _ _ => assembleLine_register_eq_none, fun _ => assembleLine_setTemp_eq_none,
    fun _ h => assembleLine_setTempC_eq_none (.inr h), fun _ _ h => assembleLine_setTempC_eq_none (.inr h),
    fun _ _ _ h => assembleLine_setTempC_eq_none (.inr h), fun _ _ h => assembleLine_setTempC_eq_none (.inl h), rfl⟩
  · exact fun whole hmax => assembleLine_setTempC (frac := []) (by simp) (by simp) hmax
  · exact fun whole d hd hmax => assembleLine_setTempC (frac := [d]) (by simp) (by simp [hd]) hmax
  · exact fun whole d e hd he hmax => assembleLine_setTempC (frac := [d, e]) (by simp) (by simp [hd, he]) hmax

/-! ### The parameters of a configuration (R77, R147, R7) -/

theorem config_waterMap (c : Config) : LegalWaterMap c.params.waterMap := by
  have h := c.ok
  simp only [violations, List.append_eq_nil_iff, List.map_eq_nil_iff, waterRows_legal_iff] at h
  obtain ⟨⟨⟨⟨-, hwater⟩, -⟩, -⟩, -⟩ := h
  exact hwater

theorem config_gasMap (c : Config) : LegalGasMap c.params.gasMap := by
  have h := c.ok
  simp only [violations, List.append_eq_nil_iff, List.map_eq_nil_iff, gasRows_legal_iff] at h
  obtain ⟨⟨⟨-, hgas⟩, -⟩, -⟩ := h
  exact hgas

theorem config_ctrlSrc_ne (c : Config) (k : Nat) (hk : k ≤ 15) :
    c.params.ctrlSrc ≠ c.params.statusSrcBase + BitVec.ofNat 8 k := by
  intro he
  have hstatus := (isStatusSrc_iff c.params c.params.ctrlSrc).2 ⟨k, hk, he⟩
  rw [config_ctrlSrc] at hstatus
  cases hstatus

/-- CTRL_SRC is no status source, so its seed is SEED_OTHER (R77, R143). -/
theorem seedFor_ctrlSrc (c : Config) : seedFor c.params c.params.ctrlSrc = Wire.seedOther := by
  simp [seedFor, config_ctrlSrc c]

/-- Settles O8, constraint by constraint of R77, R147 and R7. -/
theorem configurationParametersAreLegal : Obligations.ConfigurationParametersAreLegal := by
  intro c
  obtain ⟨hintervalMin, hintervalMax⟩ := config_presenceInterval c
  obtain ⟨hdepthMin, hdepthMax⟩ := config_queueDepth c
  exact ⟨config_directions c, config_destinations c, config_ctrlSrc_ne c, seedFor_ctrlSrc c, config_waterMap c,
    config_gasMap c, hintervalMin, hintervalMax, hdepthMin, hdepthMax⟩

end Sys2Proof.Machine

/-! The checksum engine, and the frame that SET_TEMP renders with it. -/

namespace Sys2Proof.Machine

/-! ### The checksum engine (R100 to R105) -/

/-- The special case before the loop (R101). -/
theorem checksum_of_lt_two (bs : List Byte) {n : Nat} (seed : Byte) (h : n < 2) : checksum bs n seed = 0x00#8 :=
  if_pos h

/-- Changing the last byte counted changes the result by the same XOR (R105). -/
theorem checksum_snoc_xor (bs : List Byte) (b d seed : Byte) (h : bs ≠ []) :
    checksum (bs ++ [b ^^^ d]) (bs.length + 1) seed = checksum (bs ++ [b]) (bs.length + 1) seed ^^^ d := by
  rw [checksum_snoc bs (b ^^^ d) seed h, checksum_snoc bs b seed h, BitVec.xor_assoc]

/-- Settles O11: the accumulator is masked to a byte in every iteration, and the loop reads `bs.take n` only. -/
theorem checksumAccumulatorIsAByte : Obligations.ChecksumAccumulatorIsAByte :=
  ⟨checksumAcc_le, fun _ _ _ seed h => checksum_take seed h, fun bs _ seed h => checksum_of_lt_two bs seed h⟩

/-- Settles O12: the last byte enters after the shift and the fold, and XOR is associative. -/
theorem checksumLastByteIsXor : Obligations.ChecksumLastByteIsXor := by
  intro bs b d seed hlen
  have hne : bs ≠ [] := List.length_pos_iff.1 hlen
  exact ⟨checksum_snoc bs b seed hne, checksum_snoc_xor bs b d seed hne⟩

/-! ### The rendering of SET_TEMP (R175) -/

/-- The half-degree value of an operand in range fits its byte. -/
theorem toNat_tempByte {centi : Half} (h : centi.toNat ≤ 12774) :
    (BitVec.ofNat 8 (tempByte centi)).toNat = (centi.toNat + 25) / 50 := by
  have hbyte := (tempByte_le_iff centi).2 h
  rw [BitVec.toNat_ofNat, Nat.mod_eq_of_lt (Nat.lt_succ_of_le hbyte), tempByte]

/-- SET_TEMP on an operand in range and with room for a frame: one rendering joins the queue (R171, R175). -/
theorem exec_setTemp_fits (s : State) {centi : Half} (hrange : centi.toNat ≤ 12774)
    (hroom : s.queue.length + 1 ≤ s.cfg.params.queueDepth) :
    exec (.setTemp centi) s = .next { s with
      queue := s.queue ++ [renderSetTemp s.cfg.params (BitVec.ofNat 8 (tempByte centi))] } := by
  rw [exec, execSetTemp, setTemp_inRange s centi hrange, enqueue_fits s [_] hroom]

/-- Settles O38: the frame that joins the queue is the rendering, and `renderSetTemp_spec` says what its bytes are. -/
theorem setTempRendersItsTemplate : Obligations.SetTempRendersItsTemplate := by
  intro s centi hrange hroom
  obtain ⟨hlen, htemp, hsum, hkeep⟩ := renderSetTemp_spec s.cfg (BitVec.ofNat 8 (tempByte centi))
  refine ⟨_, exec_setTemp_fits s hrange hroom, hlen, ?_, ?_, ?_⟩
  · rw [htemp, toNat_tempByte hrange]
  · rw [hlen]
    exact hsum
  · rw [hlen]
    exact hkeep

end Sys2Proof.Machine

/-! The framer: where a POLL suspends, what garbage before a frame changes, and why the cutting of an arrival into parts
makes no difference. -/

namespace Sys2Proof.Machine

/-! ### A POLL that ends early -/

/-- Settles O13. -/
theorem pollWithoutMarkerDiscards : Obligations.PollWithoutMarkerDiscards := by
  intro s hinitial hnone
  rw [exec_poll, poll_noMarker s hinitial hnone]

/-- A marker with fewer than five bytes behind it is found and left unread (R112, R114). -/
theorem poll_scanned_short (s : State) (g rest : List Byte) (hinitial : s.rxState = .initial)
    (hg : ∀ b ∈ g, b ≠ Wire.marker) (hs : s.source = g ++ Wire.marker :: rest) (hshort : rest.length < 5) :
    s.poll = { s with rxState := .markerFound, source := Wire.marker :: rest } := by
  rw [poll_scanned s g rest hinitial hg hs]
  exact poll_marker_short _ rfl (Nat.succ_lt_succ hshort)

/-- Settles O14, receive state by receive state, then the two ways of falling through to a state that lacks bytes. -/
theorem underrunSuspendsPoll : Obligations.UnderrunSuspendsPoll := by
  intro s
  simp only [exec_poll, Host.Outcome.next.injEq]
  refine ⟨fun hinitial hempty => ?_, poll_marker_short s, poll_header_short s, poll_scanned_short s,
    poll_findsHeader_short s⟩
  rw [poll_noMarker s hinitial (by simp [hempty]), ← hempty]

/-- Settles O15: the length check puts the framer in INITIAL, so the body part of the POLL does nothing. -/
theorem overLongHeaderIsRejected : Obligations.OverLongHeaderIsRejected := by
  intro s h rest hfinds hlong
  rw [exec_poll, poll_findsHeader s h rest hfinds, checkLength_reject _ (by exact hlong)]
  exact congrArg Host.Outcome.next (pollBody_of_initial _ rfl)

/-! ### Garbage before a frame -/

theorem poll_of_initial (s : State) (h : s.rxState = .initial) : s.poll = s.scan.pollHeader.pollBody := by
  rw [State.poll, pollScan_of_initial s h]

/-- The scan drops what stands before the first marker, so it stops at the same place without it (R112, R124). -/
theorem poll_garbage (s : State) {g : List Byte} (hinitial : s.rxState = .initial) (hg : ∀ b ∈ g, b ≠ Wire.marker) :
    ({ s with source := g ++ s.source } : State).poll = s.poll := by
  have hscan : ({ s with source := g ++ s.source } : State).scan = s.scan := by
    simp only [State.scan, scanBytes_garbage g s.source hg]
    rfl
  rw [poll_of_initial s hinitial, poll_of_initial { s with source := g ++ s.source } hinitial, hscan]

/-- Settles O16. -/
theorem garbageBeforeAFrameIsDiscarded : Obligations.GarbageBeforeAFrameIsDiscarded := by
  intro s g hinitial hg
  refine ⟨s.poll, exec_poll s, ?_⟩
  rw [exec_poll, poll_garbage s hinitial hg]

/-! ### A POLL that suspends -/

/-- A POLL that found no marker, resumed: what it discarded is garbage before the new bytes (R112, R124). -/
theorem poll_arrive_poll_of_noMarker {s : State} (bytes : List Byte) (hs : s.rxState = .initial)
    (hnone : ∀ b ∈ s.source, b ≠ Wire.marker) : (s.poll.arrive bytes).poll = (s.arrive bytes).poll := by
  rw [poll_noMarker s hs hnone]
  exact (poll_garbage { s with source := bytes } hs hnone).symm

theorem poll_eq_of_headerParsed {s : State} (hs : s.rxState = .headerParsed) (hp : s.poll.rxState ≠ .initial) :
    s.poll = s := by
  refine poll_header_short s hs (Nat.lt_of_not_le fun hl => hp ?_)
  rw [poll_headerParsed s hs, pollBody_initial s hs hl]

/-- A POLL that suspends after it took a header, resumed: the body part goes on where the header part left off (R118). -/
theorem poll_arrive_poll_of_markerFound {s : State} (bytes : List Byte) (hs : s.rxState = .markerFound)
    (hp : s.poll.rxState ≠ .initial) : (s.poll.arrive bytes).poll = (s.arrive bytes).poll := by
  by_cases hshort : s.source.length < 6
  · rw [poll_marker_short s hs hshort]
  obtain ⟨h, rest, hsource⟩ : ∃ h rest, s.source = headerBytes h ++ rest :=
    ⟨_, _, (headerBytes_headerOfBytes s.source (Nat.le_of_not_lt hshort)).symm⟩
  have hpoll := poll_markerFound s h rest hs hsource
  have hpoll' := poll_markerFound (s.arrive bytes) h (rest ++ bytes) hs (by simp [hsource])
  by_cases hlong : 121 < h.length.toNat
  · rw [checkLength_reject _ (by exact hlong), pollBody_of_initial _ rfl] at hpoll
    exact absurd (congrArg State.rxState hpoll) hp
  · rw [checkLength_ok _ (by exact Nat.le_of_not_lt hlong), ← poll_headerParsed _ rfl] at hpoll hpoll'
    rw [hpoll] at hp ⊢
    rw [hpoll', poll_eq_of_headerParsed rfl hp]
    rfl

/-- A POLL that suspends leaves the next one to do what it would have done without it (R115, R118, R123). -/
theorem poll_arrive_poll_of_suspends {s : State} (bytes : List Byte) (hsuspends : s.PollSuspends) :
    (s.poll.arrive bytes).poll = (s.arrive bytes).poll := by
  obtain hp | ⟨hs, hnone⟩ := hsuspends
  case inr => exact poll_arrive_poll_of_noMarker bytes hs hnone
  cases hs : s.rxState with
  | initial =>
    obtain hnone | ⟨g, rest, hsource, hg, -⟩ := scanBytes_cases s.source
    · exact poll_arrive_poll_of_noMarker bytes hs ((scanBytes_eq_nil_iff _).1 hnone)
    · have hpoll := poll_scanned s g rest hs hg hsource
      have hpoll' := poll_scanned (s.arrive bytes) g (rest ++ bytes) hs hg (by simp [hsource])
      rw [hpoll] at hp ⊢
      rw [hpoll']
      exact poll_arrive_poll_of_markerFound bytes rfl hp
  | markerFound => exact poll_arrive_poll_of_markerFound bytes hs hp
  | headerParsed => rw [poll_eq_of_headerParsed hs hp]

/-- Settles O18. -/
theorem suspendedPollIsInvisible : Obligations.SuspendedPollIsInvisible := by
  intro s bytes hsuspends
  refine ⟨s.poll, exec_poll s, ?_⟩
  rw [exec_poll, exec_poll, poll_arrive_poll_of_suspends bytes hsuspends]

/-! ### Many POLLs -/

@[simp] theorem State.arrive_nil (s : State) : s.arrive [] = s := by
  rw [State.arrive, List.append_nil]
  rfl

/-- A POLL that suspends would do so again, and change nothing more. -/
theorem poll_poll_of_suspends {s : State} (hsuspends : s.PollSuspends) : s.poll.poll = s.poll := by
  simpa using poll_arrive_poll_of_suspends [] hsuspends

/-- More POLLs than there are bytes drain the byte source: each of them consumes a byte, or suspends and is the last that
changes anything (R123). -/
theorem iterate_poll_succ_of_source_lt (s : State) (n : Nat) (hn : s.source.length < n) :
    State.poll^[n + 1] s = State.poll^[n] s := by
  induction n generalizing s with
  | zero => exact absurd hn (Nat.not_lt_zero _)
  | succ n ih =>
    rw [Function.iterate_succ_apply, Function.iterate_succ_apply State.poll n s]
    by_cases hsuspends : s.PollSuspends
    · rw [Function.iterate_succ_apply, poll_poll_of_suspends hsuspends]
    · obtain ⟨-, hless⟩ := poll_completes s hsuspends []
      exact ih s.poll (by omega)

/-- POLLs before an arrival make no difference once enough POLLs follow it: one that completes an attempt is one of those
that follow, and one that suspends is invisible (R123). -/
theorem iterate_poll_arrive_iterate_poll (s : State) (bytes : List Byte) (k n : Nat)
    (hn : s.source.length + bytes.length < n) :
    State.poll^[n] ((State.poll^[k] s).arrive bytes) = State.poll^[n] (s.arrive bytes) := by
  induction k generalizing s with
  | zero => rfl
  | succ k ih =>
    rw [Function.iterate_succ_apply]
    by_cases hsuspends : s.PollSuspends
    · obtain ⟨m, rfl⟩ := Nat.exists_eq_add_one_of_ne_zero (Nat.ne_zero_of_lt hn)
      rw [Function.iterate_fixed (poll_poll_of_suspends hsuspends), Function.iterate_succ_apply,
        poll_arrive_poll_of_suspends bytes hsuspends, ← Function.iterate_succ_apply]
    · obtain ⟨harrive, hless⟩ := poll_completes s hsuspends bytes
      calc State.poll^[n] ((State.poll^[k] s.poll).arrive bytes)
          = State.poll^[n] (s.poll.arrive bytes) := ih s.poll (by omega)
        _ = State.poll^[n + 1] (s.arrive bytes) := by rw [← harrive, Function.iterate_succ_apply]
        _ = State.poll^[n] (s.arrive bytes) := iterate_poll_succ_of_source_lt _ n (by simpa using hn)

/-! ### Runs of arrivals and POLLs -/

theorem step_arrival (s : State) (bytes : List Byte) (rest : List Input) :
    step (s.withSchedule (.arrival bytes :: rest)) = .next ((s.arrive bytes).withSchedule rest) := rfl

/-- The word of POLL (R80, R82). -/
theorem step_pollWord (s : State) (rest : List Input) :
    step (s.withSchedule (.operation 0x00000001#32 :: rest)) = .next (s.poll.withSchedule rest) := by
  rw [← poll_withSchedule]
  exact issue_of_decode_ok _ (decodeEncodeRoundTrip .poll rfl)

theorem runSteps_arrival (s : State) (bytes : List Byte) (rest : List Input) (n : Nat) :
    runSteps (1 + n) (s.withSchedule (.arrival bytes :: rest)) = runSteps n ((s.arrive bytes).withSchedule rest) := by
  rw [Nat.add_comm, runSteps_succ n (step_arrival s bytes rest)]

theorem runSteps_polls (s : State) (rest : List Input) (k n : Nat) :
    runSteps (k + n) (s.withSchedule (List.replicate k (.operation 0x00000001#32) ++ rest))
      = runSteps n ((State.poll^[k] s).withSchedule rest) := by
  induction k generalizing s with
  | zero => rw [Nat.zero_add]; rfl
  | succ k ih =>
    rw [Nat.succ_add, List.replicate_succ, List.cons_append, runSteps_succ _ (step_pollWord s _), ih]
    rfl

theorem runSteps_arrival_polls (s : State) (bytes : List Byte) (n : Nat) :
    runSteps (1 + n) (s.withSchedule (.arrival bytes :: List.replicate n (.operation 0x00000001#32)))
      = (State.poll^[n] (s.arrive bytes)).withSchedule [] := by
  have hpolls := runSteps_polls (s.arrive bytes) [] n 0
  rw [List.append_nil] at hpolls
  rw [runSteps_arrival]
  exact hpolls

/-- Settles O19: both runs are an arrival and POLLs to drain the source, the first with `k` POLLs before the arrival. -/
theorem fragmentationIndependence : Obligations.FragmentationIndependence := by
  intro s xs ys k n hn
  have harrivals : s.arrive (xs ++ ys) = (s.arrive xs).arrive ys := by
    simp [State.arrive, State.withSource]
  calc runSteps (1 + k + 1 + n) (s.withSchedule ([.arrival xs] ++ List.replicate k (.operation 0x00000001#32)
        ++ [.arrival ys] ++ List.replicate n (.operation 0x00000001#32)))
      = (State.poll^[n] ((State.poll^[k] (s.arrive xs)).arrive ys)).withSchedule [] := by
        simp only [List.append_assoc, List.cons_append, List.nil_append, Nat.add_assoc]
        rw [runSteps_arrival, runSteps_polls, runSteps_arrival_polls]
    _ = (State.poll^[n] ((s.arrive xs).arrive ys)).withSchedule [] := by
        rw [iterate_poll_arrive_iterate_poll (s.arrive xs) ys k n (by simpa using hn)]
    _ = runSteps (1 + n) (s.withSchedule ([.arrival (xs ++ ys)] ++ List.replicate n (.operation 0x00000001#32))) := by
        rw [List.singleton_append, runSteps_arrival_polls, harrivals]

end Sys2Proof.Machine

/-! The decoder: what becomes of a received frame that is not dispatched to a visitor, and the values that descriptors
extract from a body. -/

namespace Sys2Proof.Machine

/-! ### The seed of a source (R143) -/

theorem seedFor_eq_seedStatus_or_seedOther (p : Params) (src : Byte) :
    seedFor p src = Wire.seedStatus ∨ seedFor p src = Wire.seedOther := by
  rw [seedFor]
  split
  · exact .inl rfl
  · exact .inr rfl

/-- Settles O28: the status sources are the slot addresses, and there are two seeds only. -/
theorem seedFollowsSource : Obligations.SeedFollowsSource := by
  intro p src
  exact ⟨(seedFor_status_iff p src).trans (isStatusSrc_iff p src),
    (seedFor_eq_seedStatus_or_seedOther p src).resolve_left⟩

/-! ### A received frame -/

section Received
variable {s : State} {h : Header} {body : List Byte} {cs : Byte} {rest : List Byte}

/-- A foreign control frame is neither validated nor an opportunity to transmit (R144). -/
theorem poll_foreignControl (hr : s.Receives h body cs rest) (hc : frameClass s.cfg.params h = .foreignControl) :
    s.poll = (s.afterFrame h body cs rest).withCause .rxForeignCtrl := by
  rw [poll_receives s h body cs rest hr]
  obtain ⟨-, he⟩ | ⟨hn, -⟩ | ⟨hn, -⟩ := completeFrame_cases ((s.afterFrame h body cs rest).withRx .headerParsed)
  · rw [he]
    rfl
  · exact absurd hc hn
  · exact absurd hc hn

/-- A mismatch of any validated class ends the attempt (R142). -/
theorem poll_csumMismatch (hr : s.Receives h body cs rest) (hc : frameClass s.cfg.params h ≠ .foreignControl)
    (hm : ¬ ChecksumMatches s.cfg.params h body cs) : s.poll = (s.afterFrame h body cs rest).csumMismatch := by
  rw [poll_receives s h body cs rest hr]
  obtain ⟨hlen, hmax, -⟩ := hr
  obtain ⟨hf, -⟩ | ⟨-, -, he⟩ | ⟨-, hv, -⟩ := completeFrame_cases ((s.afterFrame h body cs rest).withRx .headerParsed)
  · exact absurd hf hc
  · rw [he]
    rfl
  · exact absurd ((afterFrame_checksumValid hlen hmax).1 hv) hm

/-- The state in which the handling of an accepted frame begins: the frame held and counted (R119, R141). -/
def State.counted (s : State) (h : Header) (body : List Byte) (cs : Byte) (rest : List Byte) : State :=
  ((s.afterFrame h body cs rest).withRx .headerParsed).withCounters s.counters.bumpRxOk

theorem counted_bodyLen (hr : s.Receives h body cs rest) : (s.counted h body cs rest).bodyLen = body.length :=
  hr.1.symm

theorem checksumValid_of_accepts (ha : s.Accepts h body cs rest) :
    ((s.afterFrame h body cs rest).withRx .headerParsed).checksumValid = true := by
  obtain ⟨⟨hlen, hmax, -⟩, -, hm⟩ := ha
  exact (afterFrame_checksumValid hlen hmax).2 hm

theorem poll_rxOk_of_accepts (ha : s.Accepts h body cs rest) : s.poll.counters.rxOk = s.counters.rxOk + 1#16 := by
  obtain ⟨-, n, hn⟩ := completeFrame_accepted ((s.afterFrame h body cs rest).withRx .headerParsed) ha.2.1
    (checksumValid_of_accepts ha)
  rw [poll_receives s h body cs rest ha.1, State.withRx_counters, hn]
  rfl

/-- To the outcome and the history of an accepted status frame, its decode is followed by transmissions only (R121). -/
theorem poll_of_accepted_status (ha : s.Accepts h body cs rest) (hd : h.dir = s.cfg.params.dirStatus) :
    ∃ txs : List Frame, s.poll.lastCause = (s.counted h body cs rest).decodeStatus.lastCause
      ∧ s.poll.history = (s.counted h body cs rest).decodeStatus.history ++ txs.map .tx := by
  obtain ⟨hstatus, -⟩ := classify_of_class (checksumValid_of_accepts ha)
  obtain ⟨txs, hhist, hcause, -⟩ := poll_classified ha.1
  rw [hstatus ((frameClass_status_iff _ h).2 hd)] at hhist hcause
  exact ⟨txs, hcause, hhist⟩

/-- An accepted frame of unknown direction leaves its outcome code; beside that there are transmissions only (R145). -/
theorem poll_of_accepted_otherDir (ha : s.Accepts h body cs rest) (hc : frameClass s.cfg.params h = .otherDir) :
    ∃ txs : List Frame, s.poll.lastCause = .rxUnknownDir ∧ s.poll.history = s.history ++ txs.map .tx
      ∧ s.poll.otherPresent = s.otherPresent := by
  obtain ⟨-, -, hother⟩ := classify_of_class (checksumValid_of_accepts ha)
  obtain ⟨txs, hhist, hcause, hpresent⟩ := poll_classified ha.1
  rw [hother hc] at hhist hcause hpresent
  exact ⟨txs, hcause, hhist, hpresent⟩

end Received

/-- Settles O20. -/
theorem checksumMismatchDropsFrame : Obligations.ChecksumMismatchDropsFrame := by
  intro s h body cs rest hr hc hm
  rw [exec_poll, poll_csumMismatch hr hc hm]
  rfl

/-- Settles O21: the header is of the foreign class, whatever the checksum byte. -/
theorem foreignControlFrameIsIgnored : Obligations.ForeignControlFrameIsIgnored := by
  intro s h body cs rest hr hdir hsrc
  rw [exec_poll, poll_foreignControl hr ((frameClass_foreign_iff s.cfg h).2 ⟨hdir, hsrc⟩)]
  rfl

/-- Settles O23: where the status decode ends early it writes an outcome code and emits nothing. -/
theorem undecodedStatusFrameNotifiesNobody : Obligations.UndecodedStatusFrameNotifiesNobody := by
  intro s h body cs rest ha hd
  obtain ⟨txs, hcause, hhist⟩ := poll_of_accepted_status ha hd
  have hlen := counted_bodyLen ha.1
  have undecoded : ∀ c, (s.counted h body cs rest).decodeStatus = (s.counted h body cs rest).withCause c →
      s.poll.lastCause = c ∧ s.poll.history = s.history ++ txs.map .tx := by
    intro c he
    rw [hcause, hhist, he]
    exact ⟨rfl, rfl⟩
  refine ⟨s.poll, txs, exec_poll s, fun hwater hgas => ?_, fun hdst hshort => ?_, fun hdst hshort => ?_⟩
  · exact undecoded _ (decodeStatus_unknown _ hwater hgas)
  · exact undecoded _ (decodeStatus_short _ (.inl ⟨hdst, hlen.trans_lt hshort⟩))
  · exact undecoded _ (decodeStatus_short _ (.inr ⟨hdst, hlen.trans_lt hshort⟩))

/-- Settles O29, by whether the checksum matches. -/
theorem unknownDirectionIsValidatedAndIgnored : Obligations.UnknownDirectionIsValidatedAndIgnored := by
  intro s h body cs rest hr hstatus hcontrol
  have hother := (frameClass_other_iff s.cfg.params h).2 ⟨hstatus, hcontrol⟩
  have hvalidated : frameClass s.cfg.params h ≠ .foreignControl := by simp [hother]
  by_cases hm : ChecksumMatches s.cfg.params h body cs
  · have ha : s.Accepts h body cs rest := ⟨hr, hvalidated, hm⟩
    obtain ⟨txs, hcause, hhist, hpresent⟩ := poll_of_accepted_otherDir ha hother
    exact ⟨s.poll, txs, exec_poll s, hhist, hpresent, fun _ => ⟨hcause, poll_rxOk_of_accepts ha⟩,
      fun hn => absurd hm hn⟩
  · have hpoll := poll_csumMismatch hr hvalidated hm
    refine ⟨(s.afterFrame h body cs rest).csumMismatch, [], by rw [exec_poll, hpoll], by simp, rfl,
      fun hp => absurd hp hm, fun _ => ⟨rfl, rfl, rfl, rfl⟩⟩

/-! ### The value of a descriptor (R148, R153) -/

theorem fieldValue_byte (body : List Byte) (off : Nat) (mask : Byte) :
    fieldValue body (.byte off mask) = some ⟨popcount mask, (maskedValue (byteAt body off) mask).toNat⟩ := rfl

theorem fieldValue_word (body : List Byte) (hi lo : Nat) :
    fieldValue body (.word hi lo) = some ⟨16, (byteAt body hi).toNat * 256 + (byteAt body lo).toNat⟩ := by
  rw [fieldValue, wordValue_toNat]

/-- A mask's bits, cut out of the byte. -/
theorem fieldValue_byte_of_maskBits (body : List Byte) (off : Nat) {mask : Byte} {lo n : Nat} (h : MaskBits mask lo n) :
    fieldValue body (.byte off mask) = some ⟨n, (byteAt body off).toNat / 2 ^ lo % 2 ^ n⟩ := by
  obtain ⟨-, hwidth, hvalue⟩ := h.spec
  rw [fieldValue_byte, hwidth, hvalue]

theorem maskBits_full : MaskBits 0xFF#8 0 8 := by
  unfold MaskBits
  decide

theorem fieldValue_byte_full (body : List Byte) (off : Nat) :
    fieldValue body (.byte off 0xFF#8) = some ⟨8, (byteAt body off).toNat⟩ := by
  rw [fieldValue_byte_of_maskBits body off maskBits_full, pow_zero, Nat.div_one, Nat.mod_eq_of_lt (byteAt body off).isLt]

theorem fieldValue_raw_lt {body : List Byte} {d : FieldDesc} {v : FieldValue} (hd : descLegal d = true)
    (hv : fieldValue body d = some v) : v.raw < 2 ^ v.width := by
  cases d with
  | absent => cases hv
  | byte off mask =>
    cases hv
    simp only [descLegal, Bool.and_eq_true] at hd
    obtain ⟨-, hmask⟩ := hd
    exact maskedValue_lt _ mask hmask
  | word hi lo =>
    cases hv
    exact (wordValue _ _).isLt

/-- Bits outside the mask do not reach the value. -/
theorem fieldValue_byte_congr {body body' : List Byte} {off : Nat} {mask : Byte}
    (h : byteAt body' off &&& mask = byteAt body off &&& mask) :
    fieldValue body' (.byte off mask) = fieldValue body (.byte off mask) := by
  rw [fieldValue_byte, fieldValue_byte, maskedValue, maskedValue, h]

/-- Settles O24. -/
theorem extractedValueIsItsMaskedBits : Obligations.ExtractedValueIsItsMaskedBits := by
  refine ⟨fun body off mask _ => fieldValue_byte body off mask,
    fun body off _ _ _ hmask => fieldValue_byte_of_maskBits body off hmask, fieldValue_byte_full,
    fun body d v hd hv => ⟨fieldValue_raw_lt hd hv, ?_⟩⟩
  rintro body' off mask rfl hagree
  rw [fieldValue_byte_congr hagree, hv]

/-- One bit of a byte, moved down to bit 0. -/
theorem toNat_and_twoPow_ushiftRight (b : Byte) {i : Nat} (hi : i < 8) :
    ((b &&& BitVec.twoPow 8 i) >>> i).toNat = if b &&& BitVec.twoPow 8 i = 0#8 then 0 else 1 := by
  have hpow : 2 ^ i < 2 ^ 8 := Nat.pow_lt_pow_right (by decide) hi
  have htoNat : (BitVec.twoPow 8 i).toNat = 2 ^ i := by rw [BitVec.toNat_twoPow, Nat.mod_eq_of_lt hpow]
  have hne : BitVec.twoPow 8 i ≠ 0#8 := by
    intro hzero
    rw [hzero] at htoNat
    exact absurd htoNat (Nat.two_pow_pos i).ne
  rw [BitVec.and_twoPow]
  cases b.getLsbD i with
  | false => simp
  | true => simp [hne, htoNat, Nat.shiftRight_eq_div_pow]

/-- Settles O25: a mask of one bit has its trailing zeros below that bit (`popcount_one`). -/
theorem flagFieldIsItsBit : Obligations.FlagFieldIsItsBit := by
  intro body off mask _ hflag
  have hone : popcount mask = 1 := by simpa [kindAdmits] using hflag
  obtain ⟨i, hi, rfl, hctz⟩ := popcount_one mask hone
  rw [fieldValue_byte, hone, maskedValue, hctz, toNat_and_twoPow_ushiftRight _ hi]

/-- Swapping the bytes moves the value by 255 times their difference (R161). -/
theorem wordValue_swap_sub (hi lo : Byte) :
    ((wordValue lo hi).toNat : Int) - (wordValue hi lo).toNat = 255 * ((lo.toNat : Int) - hi.toNat) := by
  rw [wordValue_toNat, wordValue_toNat]
  omega

theorem wordValue_swap_eq_iff (hi lo : Byte) : wordValue lo hi = wordValue hi lo ↔ hi = lo := by
  have hswap := wordValue_swap_sub hi lo
  constructor
  · intro he
    rw [he] at hswap
    exact BitVec.eq_of_toNat_eq (by omega)
  · rintro rfl
    rfl

/-- Settles O26. -/
theorem wordValueCombinesHiLo : Obligations.WordValueCombinesHiLo :=
  ⟨fieldValue_word, fun hi lo =>
    ⟨wordValue_toNat hi lo, not_congr (wordValue_swap_eq_iff hi lo), wordValue_swap_sub hi lo⟩⟩

/-! ### Version digits (R157) -/

theorem versionText_of_le (v : FieldValue) (h : v.raw ≤ 99) :
    (versionValue v).text = [Char.ofNat (48 + v.raw / 10), '.', Char.ofNat (48 + v.raw % 10)] :=
  if_pos h

/-- Settles O27. -/
theorem versionDigitsAreDecimal : Obligations.VersionDigitsAreDecimal :=
  fun v => ⟨rfl, rfl, rfl, versionText_of_le v⟩

end Sys2Proof.Machine

/-! The command queue and the bus arbiter: what a command operation appends or refuses, and when an accepted frame is an
opportunity to transmit. -/

namespace Sys2Proof.Machine

/-! ### The command operations (R171 to R178) -/

section
variable (s : State)

theorem exec_turnOn : exec .turnOn s = .next (s.enqueue [s.cfg.params.romTurnOn, s.cfg.params.romTurnOn]) := rfl

theorem exec_turnOff : exec .turnOff s = .next (s.enqueue [s.cfg.params.romTurnOff, s.cfg.params.romTurnOff]) := rfl

theorem exec_hotButton :
    exec .hotButton s = .next (s.enqueue [s.cfg.params.romHotPress, s.cfg.params.romHotRelease]) := rfl

theorem exec_recircOn : exec .recircOn s = .next (s.enqueue [s.cfg.params.romRecircOn]) := rfl

theorem exec_recircOff : exec .recircOff s = .next (s.enqueue [s.cfg.params.romRecircOff]) := rfl

theorem exec_setTemp (centi : Half) : exec (.setTemp centi) s = .next (s.setTemp centi) := rfl

/-- The range check precedes the space check, so the queue plays no part (R176, R234). -/
theorem setTemp_outOfRange (centi : Half) (h : 255 < tempByte centi) :
    s.setTemp centi = { s with flags := { s.flags with argErr := true }, lastCause := .errTempRange } := by
  rw [State.setTemp, if_pos h]
  rfl

end

/-- Settles O35: each paired command enqueues its two frames, and there is room for them. -/
theorem pairedCommandsQueueTwoFrames : Obligations.PairedCommandsQueueTwoFrames := by
  intro s hroom
  have fits : ∀ f g, s.enqueue [f, g] = { s with queue := s.queue ++ [f, g] } := fun f g => enqueue_fits s [f, g] hroom
  rw [exec_turnOn, exec_turnOff, exec_hotButton, fits, fits, fits]
  exact ⟨rfl, rfl, rfl⟩

/-- Settles O36: each recirculation command enqueues its frame, and there is room for it. -/
theorem recircCommandsQueueOneFrame : Obligations.RecircCommandsQueueOneFrame := by
  intro s hroom
  have fits : ∀ f, s.enqueue [f] = { s with queue := s.queue ++ [f] } := fun f => enqueue_fits s [f] hroom
  rw [exec_recircOn, exec_recircOff, fits, fits]
  exact ⟨rfl, rfl⟩

/-- Settles O37: a command hands all its frames to the queue at once, and the queue refuses them together. -/
theorem commandsWithoutSpaceAreRefusedWhole : Obligations.CommandsWithoutSpaceAreRefusedWhole := by
  intro s refused
  have full : ∀ fs : List Frame, s.cfg.params.queueDepth < s.queue.length + fs.length → .next (s.enqueue fs) = refused :=
    fun fs h => congrArg Host.Outcome.next (enqueue_full s fs h)
  refine ⟨fun hfull => ⟨full _ hfull, full _ hfull, full _ hfull⟩,
    fun hfull => ⟨full _ hfull, full _ hfull, fun centi hrange => ?_⟩⟩
  rw [exec_setTemp, setTemp_inRange s centi hrange]
  exact full _ hfull

/-- Settles O39. -/
theorem setTempOutOfRangeIsRefused : Obligations.SetTempOutOfRangeIsRefused := by
  intro s centi hrange
  rw [exec_setTemp, setTemp_outOfRange s centi hrange]

/-! ### Presence detection (R179, R180) -/

theorem presence_of_shape {s : State} (h : PresenceShape s.cfg.params s.hdr) :
    s.presence = (.foreignPresence, (s.withOtherPresent true).withCause .rxPresence) := by
  rw [State.presence, if_pos ((presenceShape_iff s).2 h)]

theorem presence_of_not_shape {s : State} (h : ¬ PresenceShape s.cfg.params s.hdr) :
    s.presence = (.accepted, s.withCause .rxControl) := by
  rw [State.presence, if_neg (mt (presenceShape_iff s).1 h)]

/-- To the outcome, the history and `other_present` of an accepted control frame, presence detection is followed by
transmissions only (R121). -/
theorem poll_of_accepted_control {s : State} {h : Header} {body : List Byte} {cs : Byte} {rest : List Byte}
    (ha : s.Accepts h body cs rest) (hc : frameClass s.cfg.params h = .control) :
    ∃ txs : List Frame, s.poll.history = s.history ++ txs.map .tx
      ∧ s.poll.otherPresent = (s.counted h body cs rest).presence.2.otherPresent
      ∧ s.poll.lastCause = (s.counted h body cs rest).presence.2.lastCause := by
  obtain ⟨-, hcontrol, -⟩ := classify_of_class (checksumValid_of_accepts ha)
  obtain ⟨txs, hhist, hcause, hpresent⟩ := poll_classified ha.1
  rw [hcontrol hc] at hhist hcause hpresent
  rw [State.presence_history] at hhist
  exact ⟨txs, hhist, hpresent, hcause⟩

/-- Settles O40, by whether the header has the presence shape. -/
theorem controlFrameDetectsPresence : Obligations.ControlFrameDetectsPresence := by
  intro s h body cs rest ha hc
  obtain ⟨txs, hhist, hpresent, hcause⟩ := poll_of_accepted_control ha hc
  refine ⟨s.poll, txs, exec_poll s, hhist, fun hshape => ?_, fun hshape => ?_⟩
  · rw [hpresent, hcause, presence_of_shape (s := s.counted h body cs rest) hshape]
    exact ⟨rfl, rfl⟩
  · rw [hpresent, hcause, presence_of_not_shape (s := s.counted h body cs rest) hshape]
    exact ⟨rfl, rfl⟩

/-! ### Opportunities to transmit (R181 to R184) -/

/-- ROM_PRESENCE is due, should the queue be empty: no competitor is known and the interval is reached (R182). -/
def State.PresenceDue (s : State) : Prop :=
  s.otherPresent = false ∧ s.hbCnt.toNat = s.cfg.params.presenceInterval

/-- `t` is `s` after an opportunity that transmitted `txs`: a queued frame goes first, with an empty queue ROM_PRESENCE if it
is due, else nothing (R182). -/
structure Opportunity (s t : State) (txs : List Frame) : Prop extends Transmits s t txs where
  otherPresent : t.otherPresent = s.otherPresent
  queued : ∀ f q, s.queue = f :: q → txs = [f] ∧ t.queue = q ∧ t.hbCnt = s.hbCnt
  presence_sent : s.queue = [] → s.PresenceDue → txs = [s.cfg.params.romPresence] ∧ t.queue = [] ∧ t.hbCnt = 0#8
  idle : s.queue = [] → ¬ s.PresenceDue → txs = [] ∧ t.queue = [] ∧ t.hbCnt = s.hbCnt

theorem sendOne_opportunity (s : State) : ∃ txs, Opportunity s s.sendOne txs := by
  cases hq : s.queue with
  | cons f q =>
    rw [sendOne_queued s f q hq]
    exact ⟨[f], ⟨Nat.le_refl 1, rfl, rfl, rfl⟩, rfl, by simp [hq], by simp [hq], by simp [hq]⟩
  | nil =>
    by_cases hdue : s.PresenceDue
    · rw [sendOne_presence s hq hdue.1 hdue.2]
      exact ⟨[s.cfg.params.romPresence], ⟨Nat.le_refl 1, rfl, rfl, rfl⟩, rfl, by simp [hq], by simp [hq],
        fun _ hn => absurd hdue hn⟩
    · rw [sendOne_idle s hq hdue]
      exact ⟨[], .refl s, rfl, by simp [hq], fun _ hd => absurd hd hdue, by simp [hq]⟩

/-- Only the transmission of ROM_PRESENCE writes `hb_cnt` (R182). -/
theorem Opportunity.hbCnt_of_not_due {s t : State} {txs : List Frame} (hopp : Opportunity s t txs) (hn : ¬ s.PresenceDue) :
    t.hbCnt = s.hbCnt := by
  cases hq : s.queue with
  | cons f q =>
    obtain ⟨-, -, hkept⟩ := hopp.queued f q hq
    exact hkept
  | nil =>
    obtain ⟨-, -, hkept⟩ := hopp.idle hq hn
    exact hkept

section Accepted
variable {s : State} {h : Header} {body : List Byte} {cs : Byte} {rest : List Byte}

/-- A foreign presence frame notifies nobody and is an opportunity, with `other_present` already set (R180, R181). -/
theorem poll_of_foreignPresence (ha : s.Accepts h body cs rest) (hf : IsForeignPresence s.cfg.params h) :
    s.poll = ((s.afterFrame h body cs rest).afterAccept [] true .rxPresence).sendOne := by
  obtain ⟨evs, c, -, ⟨-, rfl, rfl, hpoll⟩ | ⟨hn, -⟩⟩ := poll_accepts ha
  · exact hpoll
  · exact absurd hf hn

/-- Any other accepted frame is an opportunity exactly while no competitor is known, and then the heartbeat advances before
it (R181, R182). -/
theorem poll_of_not_foreignPresence (ha : s.Accepts h body cs rest) (hf : ¬ IsForeignPresence s.cfg.params h) :
    ∃ evs c, (s.otherPresent = true → s.poll = (s.afterFrame h body cs rest).afterAccept evs true c)
      ∧ (s.otherPresent = false →
          s.poll = ((s.afterFrame h body cs rest).afterAccept evs false c).heartbeat.sendOne) := by
  obtain ⟨evs, c, -, ⟨hp, -⟩ | ⟨-, -, hknown, hunknown⟩⟩ := poll_accepts ha
  · exact absurd hp hf
  · exact ⟨evs, c, hknown, hunknown⟩

end Accepted

/-- Settles O41: the opportunity comes after the heartbeat, so ROM_PRESENCE is due when the advanced count is the interval. -/
theorem opportunityBeforeACompetitor : Obligations.OpportunityBeforeACompetitor := by
  intro s h body cs rest ha hf hunknown
  obtain ⟨evs, c, -, hpoll⟩ := poll_of_not_foreignPresence ha hf
  have hhb := heartbeat_toNat ((s.afterFrame h body cs rest).afterAccept evs false c)
  obtain ⟨txs, hopp⟩ := sendOne_opportunity ((s.afterFrame h body cs rest).afterAccept evs false c).heartbeat
  rw [← hpoll hunknown] at hopp
  refine ⟨s.poll, evs, txs, exec_poll s, hopp.history, hopp.otherPresent, congrArg Counters.tx hopp.counters,
    fun f q hq => ?_, fun hq hreached => hopp.presence_sent hq ⟨rfl, hhb.trans hreached⟩, fun hq hbelow => ?_⟩
  · obtain ⟨hsent, hqueue, hkept⟩ := hopp.queued f q hq
    exact ⟨hsent, hqueue, hkept ▸ hhb⟩
  · obtain ⟨hsent, hqueue, hkept⟩ := hopp.idle hq fun ⟨_, hreached⟩ => hbelow.ne (hhb.symm.trans hreached)
    exact ⟨hsent, hqueue, hkept ▸ hhb⟩

/-- Settles O42: with `other_present` set ROM_PRESENCE is not due. -/
theorem presenceFrameIsAnOpportunity : Obligations.PresenceFrameIsAnOpportunity := by
  intro s h body cs rest ha hf
  obtain ⟨txs, hopp⟩ := sendOne_opportunity ((s.afterFrame h body cs rest).afterAccept [] true .rxPresence)
  rw [← poll_of_foreignPresence ha hf] at hopp
  have hnotDue : ¬ ((s.afterFrame h body cs rest).afterAccept [] true .rxPresence).PresenceDue :=
    fun ⟨hunknown, _⟩ => Bool.noConfusion hunknown
  refine ⟨s.poll, txs, exec_poll s, ?_, hopp.otherPresent, hopp.hbCnt_of_not_due hnotDue,
    congrArg Counters.tx hopp.counters, fun f q hq => ?_, fun hq => ?_⟩
  · simpa [State.afterAccept] using hopp.history
  · obtain ⟨hsent, hqueue, -⟩ := hopp.queued f q hq
    exact ⟨hsent, hqueue⟩
  · obtain ⟨hsent, hqueue, -⟩ := hopp.idle hq hnotDue
    exact ⟨hsent, hqueue⟩

/-- Settles O43: the frame is counted, decoded and dispatched, and the arbiter stands still. -/
theorem noOpportunityAfterACompetitor : Obligations.NoOpportunityAfterACompetitor := by
  intro s h body cs rest ha hf hknown
  obtain ⟨evs, c, hpoll, -⟩ := poll_of_not_foreignPresence ha hf
  refine ⟨s.poll, evs, exec_poll s, ?_⟩
  rw [hpoll hknown]
  exact ⟨rfl, rfl, rfl, rfl, rfl⟩

/-! ### Steps that transmit -/

/-- A step transmits nothing, or it ran a POLL. -/
theorem step_silent_or_poll {s t : State} (h : step s = .next t) :
    (∃ evs : List Event, t.history = s.history ++ evs.map .ev)
    ∨ ∃ w rest, s.schedule = .operation w :: rest ∧ decode w = .ok .poll ∧ t = (s.withSchedule rest).poll := by
  obtain ⟨added, evs, hq⟩ | ⟨rest, -, rfl⟩ | ⟨evs, sent, hp⟩ := step_kinds h
  · exact .inl ⟨evs, hq.history⟩
  · exact .inl ⟨[], (List.append_nil _).symm⟩
  · obtain ⟨w, rest, hs, hd⟩ := hp.operation
    rw [step_operation hs, issue_of_decode_ok _ hd, exec_poll] at h
    cases h
    exact .inr ⟨w, rest, hs, hd, rfl⟩

/-- Settles O44: the step ran a POLL, and a POLL that transmits accepted a frame and sent one (`poll_transmission`). -/
theorem transmissionNeedsAnAcceptedFrame : Obligations.TransmissionNeedsAnAcceptedFrame := by
  intro s t h items hitems hsent
  obtain ⟨evs, hhist⟩ | ⟨w, rest, hs, hd, rfl⟩ := step_silent_or_poll h
  · obtain rfl : items = evs.map .ev := List.append_cancel_left (hitems.symm.trans hhist)
    exact absurd (txFrames_map_ev evs) hsent
  · obtain ⟨evs, fs, hhist, -, htx, -, -, -, -, -, hqueue⟩ := poll_transmission (s.withSchedule rest)
    obtain rfl : items = evs.map .ev ++ fs.map .tx :=
      List.append_cancel_left (hitems.symm.trans (hhist.trans (List.append_assoc _ _ _)))
    rw [txFrames_append, txFrames_map_ev, txFrames_map_tx, List.nil_append] at hsent ⊢
    obtain ⟨hnone, -⟩ | ⟨hrxOk, hcause, hone⟩ := hqueue
    · exact absurd hnone hsent
    · have hlen : fs.length = 1 := by
        obtain ⟨f, rfl, -⟩ | ⟨rfl, -⟩ := hone <;> rfl
      rw [hlen] at htx
      exact ⟨⟨w, rest, hs, hd⟩, hrxOk, hlen, htx, hcause⟩

end Sys2Proof.Machine

/-! Visitor dispatch: the table that REGISTER writes, the broadcast of COMM_LOSS, and what becomes of a decoded record. -/

namespace Sys2Proof.Machine

/-! ### REGISTER (R200, R201) -/

section
variable (s : State) (k : Fin 16) (h : Byte)

theorem exec_register : exec (.register k h) s = .next (s.withVisitor k h) := rfl

@[simp] theorem State.withVisitor_registered_self : (s.withVisitor k h).registered k = true := by
  simp [State.registered]

@[simp] theorem State.withVisitor_handleOf_self : (s.withVisitor k h).handleOf k = h := by
  simp [State.handleOf]

variable {k} {j : Fin 16} (hj : j ≠ k)
include hj

theorem State.withVisitor_registered_of_ne : (s.withVisitor k h).registered j = s.registered j := by
  simp [State.registered, Fin.val_ne_of_ne hj]

theorem State.withVisitor_handleOf_of_ne : (s.withVisitor k h).handleOf j = s.handleOf j :=
  Vector.getElem_set_ne k.isLt j.isLt (Fin.val_ne_of_ne hj.symm)

end

/-- A second registration of a slot leaves nothing of the first (R201). -/
theorem State.withVisitor_withVisitor (s : State) (k : Fin 16) (h h' : Byte) :
    (s.withVisitor k h).withVisitor k h' = s.withVisitor k h' := by
  simp [State.withVisitor, BitVec.or_assoc]

/-- Settles O30. -/
theorem registerBindsOneSlot : Obligations.RegisterBindsOneSlot := by
  intro s k h
  exact ⟨_, _, exec_register s k h, s.withVisitor_registered_self k h, s.withVisitor_handleOf_self k h,
    fun j hj => ⟨s.withVisitor_registered_of_ne h hj, s.withVisitor_handleOf_of_ne h hj⟩⟩

/-- Settles O31: two registrations of a slot leave the second alone (`withVisitor_withVisitor`). -/
theorem lastRegistrationWins : Obligations.LastRegistrationWins := by
  intro s k h h'
  refine ⟨s.withVisitor k h, exec_register s k h, ?_, ?_, fun j hj =>
    ⟨s.withVisitor_registered_of_ne h hj, s.withVisitor_handleOf_of_ne h hj⟩⟩
  · rw [exec_register, exec_register, s.withVisitor_withVisitor]
  · rw [exec_register, s.withVisitor_withVisitor]

/-! ### COMM_LOSS (R207, R208) -/

section
variable (s : State)

theorem exec_commLoss : exec .commLoss s = .next (s.emit s.lossEvents) := rfl

/-- The registered slots, in ascending order. -/
def State.registeredSlots : List (Fin 16) := (List.finRange 16).filter s.registered

theorem State.mem_registeredSlots (k : Fin 16) : k ∈ s.registeredSlots ↔ s.registered k = true := by
  simp [State.registeredSlots]

theorem State.registeredSlots_pairwise_lt : s.registeredSlots.Pairwise (· < ·) :=
  (List.pairwise_lt_finRange 16).filter s.registered

theorem State.lossEvents_eq_map :
    s.lossEvents = s.registeredSlots.map fun k => .ev (.error k (s.handleOf k)) := by
  rw [State.lossEvents, State.registeredSlots]
  induction List.finRange 16 with
  | nil => rfl
  | cons k ks ih => cases hk : s.registered k <;> simp [hk, ih]

end

/-- Settles O33: the broadcast goes through the registered slots in ascending order. -/
theorem commLossNotifiesEveryVisitor : Obligations.CommLossNotifiesEveryVisitor := by
  intro s
  refine ⟨s.registeredSlots, s.registeredSlots_pairwise_lt, s.mem_registeredSlots, ?_⟩
  rw [exec_commLoss, s.lossEvents_eq_map]
  rfl

/-! ### A decoded record (R204) -/

/-- `t` is `s` after the record `d` from source `src` was dispatched and then the frames `txs` went out: what the outcome
code and the history are, for each state of the source's slot (R204). -/
structure Dispatched (s t : State) (src : Byte) (d : Decoded) (txs : List Frame) : Prop where
  outOfRange : 15 < slotOf s.cfg.params src → t.lastCause = .rxSrcRange ∧ t.history = s.history ++ txs.map .tx
  noVisitor : ∀ k : Fin 16, k.val = slotOf s.cfg.params src → s.registered k = false →
    t.lastCause = .rxNoVisitor ∧ t.history = s.history ++ txs.map .tx
  visitor : ∀ k : Fin 16, k.val = slotOf s.cfg.params src → s.registered k = true →
    t.lastCause = decodedCause d
      ∧ t.history = s.history ++ [.ev (decodedEvent k (s.handleOf k) src d)] ++ txs.map .tx

section
variable {s : State} {h : Header} {body : List Byte} {cs : Byte} {rest : List Byte}

theorem counted_bodyBytes (hr : s.Receives h body cs rest) : (s.counted h body cs rest).bodyBytes = body := by
  obtain ⟨hlen, hmax, -⟩ := hr
  rw [State.counted, State.withCounters_bodyBytes, afterFrame_bodyBytes hlen hmax]

/-- A water frame that is long enough is decoded from its own body (R146, R151). -/
theorem counted_decodeStatus_water (hr : s.Receives h body cs rest) (hdst : h.dst = s.cfg.params.dstWater)
    (hlen : waterMinLen s.cfg.params.waterMap ≤ body.length) :
    (s.counted h body cs rest).decodeStatus
      = (s.counted h body cs rest).dispatch (.water (extractWater s.cfg.params.waterMap body)) := by
  rw [decodeStatus_water (s.counted h body cs rest) hdst (hlen.trans_eq (counted_bodyLen hr).symm), counted_bodyBytes hr]
  rfl

/-- A gas frame that is long enough is decoded from its own body (R146, R151). -/
theorem counted_decodeStatus_gas (hr : s.Receives h body cs rest) (hdst : h.dst = s.cfg.params.dstGas)
    (hlen : gasMinLen s.cfg.params.gasMap ≤ body.length) :
    (s.counted h body cs rest).decodeStatus
      = (s.counted h body cs rest).dispatch (.gas (extractGas s.cfg.params.gasMap body)) := by
  rw [decodeStatus_gas (s.counted h body cs rest) hdst (hlen.trans_eq (counted_bodyLen hr).symm), counted_bodyBytes hr]
  rfl

/-- Whatever record the decode of an accepted status frame dispatches, the POLL dispatches it by the visitor table of `s`:
holding and counting the frame leave the table alone. -/
theorem poll_dispatched (ha : s.Accepts h body cs rest) (hd : h.dir = s.cfg.params.dirStatus) :
    ∃ txs, ∀ d, (s.counted h body cs rest).decodeStatus = (s.counted h body cs rest).dispatch d →
      Dispatched s s.poll h.src d txs := by
  obtain ⟨txs, hcause, hhist⟩ := poll_of_accepted_status ha hd
  refine ⟨txs, fun d hdispatch => ?_⟩
  rw [hdispatch] at hcause hhist
  constructor
  case outOfRange =>
    intro hslot
    rw [hcause, hhist, dispatch_outOfRange (s.counted h body cs rest) d hslot]
    exact ⟨rfl, rfl⟩
  case noVisitor =>
    intro k hslot hk
    rw [hcause, hhist, dispatch_noVisitor (s.counted h body cs rest) d k hslot hk]
    exact ⟨rfl, rfl⟩
  case visitor =>
    intro k hslot hk
    rw [hcause, hhist, dispatch_visitor (s.counted h body cs rest) d k hslot hk]
    exact ⟨rfl, rfl⟩

end

/-- Settles O32, by the kind of the frame: the two destinations differ, so the record is of that kind (`poll_dispatched`). -/
theorem decodedFrameReachesItsVisitor : Obligations.DecodedFrameReachesItsVisitor := by
  intro s h body cs rest ha hd
  obtain ⟨txs, hdispatched⟩ := poll_dispatched ha hd
  have hdestinations := config_destinations s.cfg
  refine ⟨s.poll, txs, exec_poll s, ?_⟩
  rintro (⟨hwater, hlen⟩ | ⟨hgas, hlen⟩)
  · have hdisp := hdispatched _ (counted_decodeStatus_water ha.1 hwater hlen)
    refine ⟨hdisp.outOfRange, fun k hslot => ⟨hdisp.noVisitor k hslot, fun hk _ => ?_,
      fun _ hgas => absurd (hwater.symm.trans hgas) hdestinations⟩⟩
    obtain ⟨hcause, hhist⟩ := hdisp.visitor k hslot hk
    exact ⟨hcause, _, extractWater_record _ body, hhist⟩
  · have hdisp := hdispatched _ (counted_decodeStatus_gas ha.1 hgas hlen)
    refine ⟨hdisp.outOfRange, fun k hslot => ⟨hdisp.noVisitor k hslot,
      fun _ hwater => absurd (hwater.symm.trans hgas) hdestinations, fun hk _ => ?_⟩⟩
    obtain ⟨hcause, hhist⟩ := hdisp.visitor k hslot hk
    exact ⟨hcause, _, extractGas_record _ body, hhist⟩

end Sys2Proof.Machine

/-! Host control: NOP and CLRERR, the inputs other than an operation word, and that the port completes every word. -/

namespace Sys2Proof.Machine

/-! ### NOP and CLRERR (R215, R216) -/

theorem exec_nop (s : State) : exec .nop s = .next s := rfl

theorem exec_clrerr (s : State) : exec .clrerr s = .next (s.withFlags s.flags.clear) := rfl

/-- Settles O48: NOP's meaning is the state itself. -/
theorem nopChangesNothing : Obligations.NopChangesNothing := exec_nop

/-- Settles O49: the one element CLRERR writes is the record of the five flags, and it writes all five. -/
theorem clrerrClearsTheErrorFlags : Obligations.ClrerrClearsTheErrorFlags := exec_clrerr

/-! ### The next input of the schedule (R220, R244, R247) -/

theorem step_idle {s : State} (hs : s.schedule = []) : step s = .next s := by
  rw [step, hs]

theorem step_perform {s : State} {input : Input} {rest : List Input} (hs : s.schedule = input :: rest) :
    step s = perform input (s.withSchedule rest) := by
  rw [step, hs]

/-- No register shows the schedule. -/
@[simp] theorem State.withSchedule_regRead (s : State) (rest : List Input) (a : Byte) :
    (s.withSchedule rest).regRead a = s.regRead a := rfl

theorem perform_arrival (s : State) (bytes : List Byte) :
    perform (.arrival bytes) s = .next { s with source := s.source ++ bytes } := rfl

theorem perform_registerRead (s : State) (a : Byte) :
    perform (.registerRead a) s = .next { s with reads := s.reads ++ [(a, s.regRead a)] } := rfl

/-- Settles O54, by what is scheduled: bytes from the bus, a register read, nothing.  The read is answered after it has left
the schedule, which no register shows. -/
theorem stepServesTheOtherPorts : Obligations.StepServesTheOtherPorts := by
  intro s rest
  refine ⟨fun bytes hs => ?arrival, fun a hs => ?registerRead, step_idle⟩
  case arrival =>
    rw [step_perform hs, perform_arrival]
    rfl
  case registerRead =>
    rw [step_perform hs, perform_registerRead, State.withSchedule_regRead]
    rfl

/-! ### The operation port (R218) -/

/-- Every operation has a next state: POLL is a function on states, and `exec_other` says what the others answer. -/
theorem exec_completes (i : Instr) (s : State) : ∃ t, exec i s = .next t := by
  by_cases hi : i = .poll
  · rw [hi]
    exact ⟨s.poll, exec_poll s⟩
  · obtain ⟨_, _, _, _, _, _, hnext, -⟩ := exec_other i s hi
    exact ⟨_, hnext⟩

/-- Settles O55, by what the word decodes to: an operation completes, and a reserved opcode records BAD_OP. -/
theorem everyOperationCompletes : Obligations.EveryOperationCompletes := by
  intro w s
  cases hd : decode w with
  | ok i =>
    rw [issue_of_decode_ok s hd]
    exact exec_completes i s
  | error e => exact ⟨s.badOp, issue_of_decode_error s hd⟩

end Sys2Proof.Machine

/-! Which parameters make a configuration, and what the reset input leaves. -/

namespace Sys2Proof.Machine

/-! ### The constraints of R265 and the check of them -/

theorem config_legalRom (c : Config) (r : RomName) : LegalRom c.params r :=
  ⟨rom_length c r, rom_marker c r, rom_bodyLength c r, rom_address c r, rom_checksum c r⟩

theorem config_legalParams (c : Config) : LegalParams c.params :=
  ⟨config_legalRom c, config_tempOffset c, config_directions c, config_destinations c, config_ctrlSrc_ne c,
    config_waterMap c, config_gasMap c, config_presenceInterval c, config_queueDepth c⟩

theorem LegalRom.romViolations_eq_nil {p : Params} {r : RomName} (h : LegalRom p r) : romViolations p r = [] := by
  obtain ⟨hsize, hmarker, hbody, haddress, hchecksum⟩ := h
  simp only [romViolations, List.append_eq_nil_iff, requireThat_eq_nil, Bool.and_eq_true, Bool.or_eq_true,
    decide_eq_true_eq, beq_iff_eq]
  exact ⟨⟨⟨⟨hsize, hmarker⟩, hbody⟩, haddress⟩, or_iff_not_imp_left.2 hchecksum⟩

theorem LegalParams.isStatusSrc_ctrlSrc {p : Params} (h : LegalParams p) : isStatusSrc p p.ctrlSrc = false := by
  rw [Bool.eq_false_iff, Ne, isStatusSrc_iff]
  exact fun ⟨k, hk, he⟩ => h.ctrl_src k hk he

theorem LegalParams.violations_eq_nil {p : Params} (h : LegalParams p) : violations p = [] := by
  have hroms : ∀ r, romViolations p r = [] := fun r => (h.roms r).romViolations_eq_nil
  simp only [violations, List.append_eq_nil_iff, List.flatMap_eq_nil_iff, List.map_eq_nil_iff, requireThat_eq_nil,
    Bool.and_eq_true, Bool.not_eq_true', decide_eq_true_eq, bne_iff_ne, waterRows_legal_iff, gasRows_legal_iff]
  exact ⟨⟨⟨⟨⟨⟨⟨⟨fun r _ => hroms r, h.temp_offset⟩, h.directions⟩, h.destinations⟩, h.isStatusSrc_ctrlSrc⟩,
    h.water_map⟩, h.gas_map⟩, h.presence_interval⟩, h.queue_depth⟩

/-- The check names a broken constraint exactly when one is broken. -/
theorem violations_eq_nil_iff (p : Params) : violations p = [] ↔ LegalParams p :=
  ⟨fun h => config_legalParams ⟨p, h⟩, LegalParams.violations_eq_nil⟩

theorem ofParams_of_violations_eq_nil {p : Params} (h : violations p = []) : Config.ofParams p = .ok ⟨p, h⟩ :=
  dif_pos h

theorem ofParams_of_violations_ne_nil {p : Params} (h : violations p ≠ []) :
    Config.ofParams p = .error (violations p) :=
  dif_neg h

/-- Settles O9: `Config.ofParams` asks whether `violations` is empty, and that is whether the parameters are legal. -/
theorem illegalConfigurationIsRefused : Obligations.IllegalConfigurationIsRefused := by
  intro p
  rw [← violations_eq_nil_iff]
  exact ⟨fun h => ⟨_, ofParams_of_violations_eq_nil h, rfl⟩, fun h => ⟨h, ofParams_of_violations_ne_nil h⟩⟩

/-! ### The reset input (R260, R262) -/

@[simp] theorem State.hostReset_registered (s : State) (k : Fin 16) : s.hostReset.registered k = false := by
  simp [State.registered]

@[simp] theorem State.hostReset_handleOf (s : State) (k : Fin 16) : s.hostReset.handleOf k = 0#8 := by
  simp [State.handleOf]

@[simp] theorem State.hostReset_body_toList (s : State) : s.hostReset.body.toList = List.replicate 128 0#8 :=
  Vector.toList_replicate

theorem perform_hostReset (s : State) : perform .hostReset s = .next s.hostReset := rfl

/-- Settles O56, row by row of the table of R260; what R262 and R33 leave alone comes last.  The body and the visitor table
are vectors, each read through its own lemma; the other rows are `State.hostReset` as it is defined. -/
theorem resetInputResetsTheBlock : Obligations.ResetInputResetsTheBlock := by
  intro s rest hs
  refine ⟨(s.withSchedule rest).hostReset, by rw [step_perform hs, perform_hostReset], ?_⟩
  exact ⟨rfl, rfl, State.hostReset_body_toList _, rfl, rfl, rfl,
    fun k => ⟨State.hostReset_registered _ k, State.hostReset_handleOf _ k⟩, rfl, rfl, rfl, rfl, rfl, rfl, rfl, rfl⟩

end Sys2Proof.Machine
